-- ==== Sys2Proof/Word.lean ====
section
/-! DEFINITION. The word types of the AVR: bytes, program words, program and data addresses, register numbers. -/

namespace Sys2Proof

/-- 8 bits: a general register, an I/O register, a byte of memory (10_state.md R20). -/
abbrev Byte := BitVec 8

/-- 16 bits: one instruction word (30_encoding.md R110). -/
abbrev Word := BitVec 16

/-- A program word address, at most 22 bits wide (10_state.md R25). -/
abbrev ProgAddr := BitVec 22

/-- A data address: 24 bits hold the widest, a RAMP register before a 16-bit pointer (10_state.md R41). -/
abbrev DataAddr := BitVec 24

/-- The number of a general register, R0 to R31 (00_scope.md R12). -/
abbrev Reg := BitVec 5

end Sys2Proof
end

