-- ==== Sys2Proof/Machine/Memory.lean ====
section
/-! DEFINITION. The two byte memories, data and program, as lists of (address, byte) pairs in one canonical form:
addresses strictly rising and no entry equal to what an unlisted address reads as. -/

namespace Sys2Proof.Machine

/-- A sparse byte memory. -/
abbrev Memory := List Host.Cell

/-- Which memory: the SRAM bytes `DM`, or program memory `PM` seen as bytes (10_state.md R48). -/
inductive Space where
  | data | program
deriving DecidableEq, Repr

/-- What an address that is not listed reads as. An SRAM byte nothing has written holds no value (10_state.md table
R50). A program byte outside the image is erased flash, 0xFF (60_exceptions.md R404). DESIGN CHOICE for program memory,
whose contents the spec leaves to the launch. Logs 3 and 4. -/
def unlistedByte : Space → Option Byte
  | .data => none
  | .program => some 0xFF

/-- The byte listed at an address. -/
def Memory.lookup : Memory → Nat → Option Byte
  | [], _ => none
  | (k, b) :: rest, a => if k = a then some b else Memory.lookup rest a

/-- The byte an address reads as: the one listed, else what an unlisted address reads as. -/
def Memory.read (sp : Space) (m : Memory) (a : Nat) : Option Byte :=
  match m.lookup a with
  | some b => some b
  | none => unlistedByte sp

/-- The list with the byte at an address set, in rising order. -/
def Memory.insert : Memory → Nat → Byte → Memory
  | [], a, b => [(a, b)]
  | (k, c) :: rest, a, b =>
    if a < k then (a, b) :: (k, c) :: rest
    else if a = k then (a, b) :: rest
    else (k, c) :: Memory.insert rest a b

/-- The list without the entry of an address. -/
def Memory.erase (m : Memory) (a : Nat) : Memory := m.filter fun c => c.1 != a

/-- Write a byte, keeping the canonical form: the value an unlisted address reads as is not listed. -/
def Memory.write (sp : Space) (m : Memory) (a : Nat) (b : Byte) : Memory :=
  if unlistedByte sp = some b then m.erase a else m.insert a b

/-- The canonical form: addresses strictly rising, no entry equal to what an unlisted address reads as. -/
def Memory.wf (sp : Space) (m : Memory) : Bool :=
  decide (m.Pairwise fun c c' => c.1 < c'.1) && m.all fun c => unlistedByte sp != some c.2

end Sys2Proof.Machine
end

