-- ==== Sys2Proof/Config.lean ====
section
/-! DEFINITION. What a variant fixes: the configuration record `Cfg` (00_scope.md R5 to R8, R18), and the one free
value of the model, the byte a platform read returns (20_memory.md R82). -/

namespace Sys2Proof

/-- The core level `CORE` (00_scope.md table R6). -/
inductive Core where
  | avr1 | avrTiny | classic | classicPlus | enhanced | xmega | xmegaRmw
deriving DecidableEq, Repr

/-- `LPM_FORM` and `ELPM_FORM` (00_scope.md tables R6, R7); `absent` is the spec's `NONE`. -/
inductive LpmForm where
  | absent | r0Only | full
deriving DecidableEq, Repr

/-- `STACK_KIND` (00_scope.md table R6). -/
inductive StackKind where
  | dataSpace | hardware3
deriving DecidableEq, Repr

/-- `LDST_MODES` (00_scope.md table R6). -/
inductive LdstModes where
  | zOnly | noDisplacement | full
deriving DecidableEq, Repr

/-- `LDS_STS_FORM` (00_scope.md table R6); `absent` is the spec's `NONE`. -/
inductive LdsStsForm where
  | absent | twoWord | oneWordTiny
deriving DecidableEq, Repr

/-- `SPM_FORM` (00_scope.md R8); `absent` is the spec's `NONE`. -/
inductive SpmForm where
  | absent | plain | plainAndZinc
deriving DecidableEq, Repr

/-- A range of data addresses the platform declares (20_memory.md R80: "a region the platform declares"). -/
structure PlatformRegion where
  first    : Nat
  last     : Nat
  writable : Bool
deriving DecidableEq, Repr

/-- The configuration record `Cfg`: a variant of the family. No rule of the spec fixes a chip (00_scope.md R5). -/
structure Cfg where
  -- table R6: core level
  core             : Core
  lpmForm          : LpmForm
  hasMovw          : Bool
  hasMul           : Bool
  xmegaMap         : Bool
  hasRmw           : Bool
  lowRegs          : Bool
  regsInDataSpace  : Bool
  hasWordOps       : Bool
  hasIjmpIcall     : Bool
  stackKind        : StackKind
  ldstModes        : LdstModes
  ldsStsForm       : LdsStsForm
  -- table R7: memory addressing
  flashWords       : Nat
  pcBits           : Nat
  pcStackBytes     : Nat
  spBits           : Nat
  hasJmpCall       : Bool
  elpmForm         : LpmForm
  hasEind          : Bool
  hasRampx         : Bool
  hasRampy         : Bool
  hasRampz         : Bool
  hasRampd         : Bool
  dataAddrBits     : Nat
  rampBits         : Nat
  eindBits         : Nat
  ramStart         : Nat
  ramEnd           : Nat
  hasExtIo         : Bool
  -- R8: optional features
  spmForm          : SpmForm
  hasBreak         : Bool
  hasDes           : Bool
  -- table R18: platform parameters
  resetPc          : Nat
  spReset          : Nat
  nIrq             : Nat
  vectorBase       : Nat
  vectorStride     : Nat
  sleepEnabled     : Bool
  tinyFlashDataBase : Nat
  -- R80: the platform's declared regions
  platformRegions  : List PlatformRegion
deriving DecidableEq, Repr

/-- FREE VALUE (20_memory.md R82): the byte the platform returns for its `draw`-th answer, to a read of data address
`addr`. The constant has no body, so nothing can be proved of the byte. Log 6. -/
opaque Config.platformByte (draw addr : Nat) : Byte

end Sys2Proof
end

