-- ==== Sys2Proof/Machine/Profiles.lean ====
section
/-! DEFINITION. The profiles of 00_scope.md table R9, what makes a configuration record one of the family (`Cfg.valid`:
tables R6, R7, R9, R18 and the data address maps of 20_memory.md R76 to R78), and the windows of its data address map
(20_memory.md R80). A size that the spec leaves to the part is a choice of the profile. Log 32. -/

namespace Sys2Proof

/-- Profile `REF` (00_scope.md R9): the profile of the spec's own test vectors and the one `State.reset` takes. -/
def Cfg.ref : Cfg where
  core := .enhanced
  lpmForm := .full
  hasMovw := true
  hasMul := true
  xmegaMap := false
  hasRmw := false
  lowRegs := true
  regsInDataSpace := true
  hasWordOps := true
  hasIjmpIcall := true
  stackKind := .dataSpace
  ldstModes := .full
  ldsStsForm := .twoWord
  flashWords := 65536
  pcBits := 16
  pcStackBytes := 2
  spBits := 16
  hasJmpCall := true
  elpmForm := .absent
  hasEind := false
  hasRampx := false
  hasRampy := false
  hasRampz := false
  hasRampd := false
  dataAddrBits := 16
  rampBits := 0
  eindBits := 0
  ramStart := 0x0100
  ramEnd := 0x08FF
  hasExtIo := true
  spmForm := .absent
  hasBreak := false
  hasDes := false
  resetPc := 0
  spReset := 0x08FF
  nIrq := 0
  vectorBase := 0
  vectorStride := 2
  sleepEnabled := true
  tinyFlashDataBase := 0
  platformRegions := []

/-- Profile `AVR2` of table R9: the classic core with 8 KiB of program space and the zero-operand LPM. Log 32. -/
def Cfg.avr2 : Cfg :=
  { Cfg.ref with
    core := .classic, lpmForm := .r0Only, hasMovw := false, hasMul := false, flashWords := 0x1000, pcBits := 12,
    hasJmpCall := false, ramStart := 0x0060, ramEnd := 0x025F, hasExtIo := false, spReset := 0x025F, vectorStride := 1 }

/-- Profile `AVR2.5` of table R9: `AVR2` with MOVW and every form of LPM. Log 32. -/
def Cfg.avr25 : Cfg := { Cfg.avr2 with core := .classicPlus, lpmForm := .full, hasMovw := true }

/-- Profile `AVR3` of table R9 with more than 64 KiB of ROM: JMP and CALL, the zero-operand ELPM and RAMPZ. Log 32. -/
def Cfg.avr3 : Cfg :=
  { Cfg.avr2 with
    flashWords := 0x10000, pcBits := 16, hasJmpCall := true, elpmForm := .r0Only, hasRampz := true, rampBits := 1,
    ramEnd := 0x0FFF, spReset := 0x0FFF, vectorStride := 2 }

/-- Profile `AVR4` of table R9: the enhanced core with 8 KiB of program space. Log 32. -/
def Cfg.avr4 : Cfg :=
  { Cfg.ref with
    flashWords := 0x1000, pcBits := 12, hasJmpCall := false, ramStart := 0x0060, ramEnd := 0x045F, hasExtIo := false,
    spReset := 0x045F, vectorStride := 1 }

/-- Profile `AVR5` of table R9: the enhanced core with JMP and CALL and no more than 64 KiB of ROM. Log 32. -/
def Cfg.avr5 : Cfg := { Cfg.ref with flashWords := 0x4000, pcBits := 14 }

/-- Profile `AVR5.1` of table R9: `AVR5` with 128 KiB of ROM, every form of ELPM, and RAMPZ. Log 32. -/
def Cfg.avr51 : Cfg :=
  { Cfg.ref with elpmForm := .full, hasRampz := true, rampBits := 1, ramEnd := 0x10FF, spReset := 0x10FF }

/-- Profile `AVR6` of table R9 with 4 Mi words of flash, ELPM, EIND and a three-byte return address: the part of
95_test_vectors.md table T3a. SPM is the plain form. -/
def Cfg.avr6 : Cfg :=
  { Cfg.ref with
    flashWords := 0x400000, pcBits := 22, pcStackBytes := 3, elpmForm := .full, hasEind := true, hasRampz := true,
    rampBits := 8, eindBits := 8, ramStart := 0x0200, ramEnd := 0x21FF, spReset := 0x21FF, spmForm := .plain,
    hasBreak := true }

/-- Profile `XMEGA_RMW` of table R9 with RAMPX, RAMPY, RAMPZ, RAMPD, EIND, DES and both SPM forms; the data flash of
20_memory.md R76 is a region of the platform. Logs 21 and 32. -/
def Cfg.xmegaRmw : Cfg :=
  { Cfg.ref with
    core := .xmegaRmw, xmegaMap := true, hasRmw := true, regsInDataSpace := false,
    flashWords := 0x20000, pcBits := 17, pcStackBytes := 3, elpmForm := .full, hasEind := true,
    hasRampx := true, hasRampy := true, hasRampz := true, hasRampd := true, dataAddrBits := 24, rampBits := 8,
    eindBits := 8, ramStart := 0x2000, ramEnd := 0x27FF, spReset := 0x27FF, hasExtIo := false,
    spmForm := .plainAndZinc, hasBreak := true, hasDes := true,
    platformRegions := [{ first := 0x1000, last := 0x1FFF, writable := true }] }

/-- Profile `XMEGA` of table R9: `XMEGA_RMW` without XCH, LAS, LAC and LAT. Logs 21 and 32. -/
def Cfg.xmega : Cfg := { Cfg.xmegaRmw with core := .xmega, hasRmw := false }

/-- Profile `AVRTINY` of table R9: registers R16 to R31, one-word LDS and STS, program memory readable at 0x4000
(20_memory.md R78). -/
def Cfg.avrTiny : Cfg :=
  { Cfg.ref with
    core := .avrTiny, lpmForm := .absent, hasMovw := false, hasMul := false, lowRegs := false,
    regsInDataSpace := false, hasWordOps := false, ldstModes := .noDisplacement, ldsStsForm := .oneWordTiny,
    flashWords := 0x0800, pcBits := 11, hasJmpCall := false, ramStart := 0x0040, ramEnd := 0x00BF, hasExtIo := false,
    spReset := 0x00BF, vectorStride := 1, tinyFlashDataBase := 0x4000 }

/-- Profile `AVR1` of table R9: the three-level hardware stack, Z the only pointer, no RAM (20_memory.md R77). LPM_FORM
is an open parameter of this core (table R6, 91_not_in_source.md N12) and `Cfg.valid` takes each of its three values.
DESIGN CHOICE of this profile alone: the zero-operand form. Log 32. -/
def Cfg.avr1 : Cfg :=
  { Cfg.ref with
    core := .avr1, lpmForm := .r0Only, hasMovw := false, hasMul := false, hasWordOps := false, hasIjmpIcall := false,
    stackKind := .hardware3, ldstModes := .zOnly, ldsStsForm := .absent, flashWords := 0x0200, pcBits := 9,
    hasJmpCall := false, ramStart := 0x0060, ramEnd := 0x005F, hasExtIo := false, spReset := 0, vectorStride := 1 }

/-- The profile of the machine after reset. The spec fixes no chip (00_scope.md R5, D1). DESIGN CHOICE: `REF`. Log 1. -/
def Cfg.atReset : Cfg := Cfg.ref

/-- The XMEGA cores (00_scope.md table R6). -/
def Cfg.isXmega (c : Cfg) : Bool := c.core == .xmega || c.core == .xmegaRmw

/-- The variant whose words with bits 15:12 = 1010 are the one-word LDS and STS (30_encoding.md R110, R123). -/
def Cfg.isTiny (c : Cfg) : Bool := c.core == .avrTiny

/-- `CLASSIC` and every level above it (00_scope.md table R6). -/
def Cfg.classicUp (c : Cfg) : Bool := c.core != .avr1 && c.core != .avrTiny

/-- `CLASSIC_PLUS` and every level above it (00_scope.md table R6). -/
def Cfg.classicPlusUp (c : Cfg) : Bool := c.classicUp && c.core != .classic

/-- `ENHANCED` and every level above it (00_scope.md table R6). -/
def Cfg.enhancedUp (c : Cfg) : Bool := c.classicPlusUp && c.core != .classicPlus

/-- What the core level decides (00_scope.md tables R6 and R9). LPM_FORM of AVR1 is open (91_not_in_source.md N12): every
value is taken. -/
def Cfg.coreValid (c : Cfg) : Bool :=
  (match c.core with
    | .avr1 => true
    | .avrTiny => c.lpmForm == .absent
    | .classic => c.lpmForm == .r0Only
    | _ => c.lpmForm == .full) &&
  c.hasMovw == c.classicPlusUp && c.hasMul == c.enhancedUp && c.xmegaMap == c.isXmega &&
  c.hasRmw == (c.core == .xmegaRmw) && c.lowRegs == !c.isTiny &&
  c.regsInDataSpace == (!c.isXmega && !c.isTiny) && c.hasWordOps == c.classicUp &&
  c.hasIjmpIcall == (c.core != .avr1) &&
  c.stackKind == (if c.core == .avr1 then .hardware3 else .dataSpace) &&
  (match c.core with
    | .avr1 => c.ldstModes == .zOnly && c.ldsStsForm == .absent
    | .avrTiny => c.ldstModes == .noDisplacement && c.ldsStsForm == .oneWordTiny
    | _ => c.ldstModes == .full && c.ldsStsForm == .twoWord) &&
  (c.classicUp || (!c.hasJmpCall && c.elpmForm == .absent && !c.hasEind)) &&
  (!c.isXmega || (c.hasJmpCall && c.spBits == 16))

/-- What program memory decides (00_scope.md tables R7, R18; `PC_BITS` is the ceiling of the logarithm, D3): the width
of the pc, the bytes of a return address, EIND above 128 KiB, JMP and CALL above 8 KiB. ELPM above 64 KiB is not asked:
`REF` has 128 KiB and no ELPM (R9). Log 33. -/
def Cfg.programValid (c : Cfg) : Bool :=
  1 ≤ c.pcBits && c.pcBits ≤ 22 && c.flashWords ≤ 2 ^ c.pcBits && 2 ^ (c.pcBits - 1) < c.flashWords &&
  c.pcStackBytes == (if c.pcBits > 16 then 3 else 2) && c.hasEind == decide (65536 < c.flashWords) &&
  (c.hasJmpCall || c.flashWords ≤ 4096) && c.eindBits ≤ 8 && decide (c.resetPc < c.flashWords) &&
  (c.vectorStride == 1 || c.vectorStride == 2)

/-- Something of the data space lies above an address: internal SRAM, a region of the platform, or the AVRtiny window on
program memory. DEDUCED: the spec speaks of the size of the data space (table R7) and does not say what it counts.
Log 33. -/
def Cfg.dataSpaceAbove (c : Cfg) (addr : Nat) : Bool :=
  addr < c.ramEnd || c.platformRegions.any (fun r => addr < r.last) ||
  (c.isTiny && addr < c.tinyFlashDataBase + 2 * c.flashWords - 1)

/-- What the data space decides (00_scope.md table R7): an 8-bit SP up to 256 bytes and a 16-bit SP above (where SP
exists), RAMPZ with ELPM or above 64 KiB, 24-bit addresses with RAMPX, RAMPY, RAMPD or RAMPZ for data, else 16-bit ones,
and nothing beyond them. Log 33. DESIGN CHOICE: RAMPX, RAMPY and RAMPD are free, each by itself, whatever the size of the
data space; above 64 KiB RAMPZ alone is asked. Log 34. -/
def Cfg.dataValid (c : Cfg) : Bool :=
  (c.spBits == 8 || c.spBits == 16) &&
  (c.stackKind == .hardware3 || c.spBits == if c.dataSpaceAbove 0xFF then 16 else 8) &&
  c.hasRampz == (c.elpmForm != .absent || c.dataSpaceAbove 0xFFFF) &&
  c.dataAddrBits == (if c.hasRampx || c.hasRampy || c.hasRampd || c.dataSpaceAbove 0xFFFF then 24 else 16) &&
  c.rampBits ≤ 8 && c.ramStart ≤ c.ramEnd + 1 && c.ramEnd < 2 ^ c.dataAddrBits &&
  c.platformRegions.all (fun r => r.last < 2 ^ c.dataAddrBits) && decide (c.spReset < 2 ^ c.spBits)

/-- What the data address map of the core fixes: on XMEGA the data flash at 0x1000 to 0x1FFF, platform state, and SRAM
from 0x2000 (20_memory.md R76); on AVR1 no SRAM and no region of the platform (R77, R83); on AVRtiny SRAM from 0x40 and,
above it, the window on program memory, to which nothing is stored (R78). On the classic map RAMSTART and RAMEND are the
part's (R75), and no region of the platform lies in the extended-I/O window of a part that lacks it (R83). -/
def Cfg.mapValid (c : Cfg) : Bool :=
  match c.core with
  | .avr1 => c.ramEnd < c.ramStart && c.platformRegions.isEmpty
  | .avrTiny =>
    c.ramStart == 0x0040 && c.ramEnd < c.tinyFlashDataBase &&
    c.platformRegions.all fun r =>
      !r.writable || r.last < c.tinyFlashDataBase || c.tinyFlashDataBase + 2 * c.flashWords ≤ r.first
  | .xmega | .xmegaRmw =>
    c.ramStart == 0x2000 && c.platformRegions.any fun r => r.first ≤ 0x1000 && 0x1FFF ≤ r.last
  | .classic | .classicPlus | .enhanced => c.hasExtIo || c.platformRegions.all fun r => 0xFF < r.first

/-- The record is one of the family's variants. -/
def Cfg.valid (c : Cfg) : Bool := c.coreValid && c.programValid && c.dataValid && c.mapValid

/-- `IO_BASE` (20_memory.md R80). -/
def Cfg.ioBase (c : Cfg) : Nat := if c.regsInDataSpace then 0x20 else 0

/-- `ExtIoWindow` (20_memory.md R80): 0x60 to 0xFF on the classic map with HAS_EXT_IO, 0x40 to 0x0FFF on the XMEGA map. -/
def Cfg.inExtIo (c : Cfg) (addr : Nat) : Bool :=
  if c.xmegaMap then 0x40 ≤ addr && addr ≤ 0x0FFF
  else c.regsInDataSpace && c.core != .avr1 && c.hasExtIo && 0x60 ≤ addr && addr ≤ 0xFF

/-- The AVRtiny window on program memory (20_memory.md R78, R80). -/
def Cfg.inFlashWindow (c : Cfg) (addr : Nat) : Bool :=
  c.isTiny && c.tinyFlashDataBase ≤ addr && addr - c.tinyFlashDataBase < 2 * c.flashWords

/-- A region the platform declares (20_memory.md R80). -/
def Cfg.inPlatform (c : Cfg) (addr : Nat) : Bool := c.platformRegions.any fun r => r.first ≤ addr && addr ≤ r.last

/-- A region the platform declares writable (20_memory.md R80). -/
def Cfg.inWritablePlatform (c : Cfg) (addr : Nat) : Bool :=
  c.platformRegions.any fun r => r.writable && r.first ≤ addr && addr ≤ r.last

end Sys2Proof
end

