-- ==== Sys2Proof/Machine/State.lean ====
section
/-! DEFINITION. The state of the machine (10_state.md), the reasons a step can stop (60_exceptions.md R381) and the state
after reset (70_reset_and_hazards.md R430). -/

namespace Sys2Proof.Machine

/-- The model outcomes of 60_exceptions.md table R381 that the spec treats as a fault. Each is SAFE: the run ends where
the hardware does something the spec does not know. -/
inductive Fault where
  /-- `ReservedInstruction(w)`: raised by fetch and by every meaning for a word that is reserved, unlisted or absent on
  the variant (30_encoding.md R140, R141), and by a skip over a two-word pattern the variant lacks (45_branch.md R361).
  Safe. -/
  | reservedInstruction (w : Word)
  /-- `UndefinedOperands(w)`: raised by a load or store that updates the pointer whose half it also names, and by LPM and
  ELPM Rd,Z+ with Rd = R30 or R31 (42_transfer.md R275). Safe. -/
  | undefinedOperands (w : Word)
  /-- `DataAccessOutOfRange(addr)`: raised by a data access that no region claims (20_memory.md R83). Safe. -/
  | dataAccessOutOfRange (addr : DataAddr)
  /-- `FetchOutOfRange(wa)`: raised by an instruction fetch, the look-ahead of a skip, LPM, ELPM and the AVRtiny flash
  window at a word address not below FLASH_WORDS (20_memory.md R84). Safe. -/
  | fetchOutOfRange (wa : Nat)
  /-- `HardwareStackOverflow`: raised by RCALL and interrupt entry on AVR1 with three entries in use (20_memory.md R88).
  Safe. -/
  | hardwareStackOverflow
  /-- `HardwareStackUnderflow`: raised by RET and RETI on AVR1 with no entry in use (20_memory.md R88). Safe. -/
  | hardwareStackUnderflow
  /-- `ReadOfUnspecified(loc)`: raised by a read of an SRAM byte nothing has written since reset (10_state.md table R50).
  Safe. Log 3. -/
  | readOfUnspecified (addr : DataAddr)
deriving DecidableEq, Repr

/-- The instructions the spec declines to model, `Unmodelled(name)` of 60_exceptions.md table R381, and the host's own
refusal of an instruction without a meaning. Each is SAFE: the run ends. -/
inductive Refusal where
  /-- An instruction that has no meaning in this package yet: raised only by `exec`. Safe. -/
  | notModelled (mnemonic : String)
  /-- `Unmodelled("DES")`: raised by DES where present; the round function is not in the source (40_arithmetic.md R189).
  Safe. -/
  | unmodelledDes
  /-- `Unmodelled("BREAK")`: raised by BREAK where present; the debug unit is outside the spec (41_bit_and_others.md
  R238). Safe. -/
  | unmodelledBreak
  /-- `Unmodelled("SPM")`: raised by SPM and SPM Z+ where present; the non-volatile-memory controller is outside the
  spec (42_transfer.md R293, R294). Safe. -/
  | unmodelledSpm
deriving DecidableEq, Repr

/-- What the core signals to the platform (60_exceptions.md R387). -/
inductive Event where
  /-- `PlatformWrite(addr, v)` (20_memory.md R82). -/
  | write (addr : DataAddr) (v : Byte)
  /-- `PlatformEvent(WDR)` (41_bit_and_others.md R237). -/
  | watchdogReset
  /-- `PlatformEvent(RETI)`, XMEGA only (44_call.md R348). -/
  | handlerEnded
  /-- `PlatformEvent(IrqTaken(n))` (60_exceptions.md R392). -/
  | irqTaken (n : Nat)
deriving DecidableEq, Repr

/-- What the platform answers at one instruction boundary: its set of pending requests and the members it presents to
the core (60_exceptions.md R388). Log 7. -/
structure PlatformInput where
  pending   : List Nat
  presented : List Nat
deriving DecidableEq, Repr

/-- The machine. The fields up to `pending` are the spec's state (10_state.md R20 to R48); `cfg`, `inputs`, `draws` and
`trace` are the model's own (INVENTORY.md, State). -/
structure State where
  /-- The variant (00_scope.md R5); no step changes it. Log 1. -/
  cfg        : Cfg
  /-- R0 to R31 (10_state.md R20). -/
  regs       : Vector Byte 32
  /-- The program counter, a word address (10_state.md R25). -/
  pc         : ProgAddr
  /-- SREG: bit 7 I, 6 T, 5 H, 4 S, 3 V, 2 N, 1 Z, 0 C (10_state.md R27). -/
  sreg       : Byte
  /-- The stack pointer SPH:SPL (10_state.md R38). -/
  sp         : BitVec 16
  /-- The AVR1 hardware stack `HS`, top first (10_state.md R40). -/
  hwStack    : List ProgAddr
  /-- RAMPD (10_state.md R41). -/
  rampd      : Byte
  /-- RAMPX (10_state.md R41). -/
  rampx      : Byte
  /-- RAMPY (10_state.md R41). -/
  rampy      : Byte
  /-- RAMPZ (10_state.md R41). -/
  rampz      : Byte
  /-- EIND (10_state.md R42). -/
  eind       : Byte
  /-- `DM`, the internal SRAM (10_state.md R48 (b)). -/
  dm         : Memory
  /-- `PM`, program memory as bytes (10_state.md R48 (a)). -/
  pm         : Memory
  /-- `irq_inhibit` (10_state.md R48 (e)). -/
  irqInhibit : Bool
  /-- `sleeping` (10_state.md R48 (f)). -/
  sleeping   : Bool
  /-- The pending interrupt requests (10_state.md R48 (g)). -/
  pending    : List Nat
  /-- The platform's answers at the boundaries to come, the next one first; none left means nothing is presented. Log 7. -/
  inputs     : List PlatformInput
  /-- How many platform bytes have been read: the argument of the free value `Config.platformByte`. Log 6. -/
  draws      : Nat
  /-- The platform events so far, newest first. Log 8. -/
  trace      : List Event
deriving DecidableEq, Repr

/-- The machine of a variant right after reset (10_state.md table R50). The general registers have no reset value in the
spec: DESIGN CHOICE 0x00. Log 2. -/
def State.resetOf (c : Cfg) : State where
  cfg := c
  regs := Vector.replicate 32 0x00
  pc := BitVec.ofNat 22 c.resetPc
  sreg := 0x00
  sp := BitVec.ofNat 16 c.spReset
  hwStack := []
  rampd := 0x00
  rampx := 0x00
  rampy := 0x00
  rampz := 0x00
  eind := 0x00
  dm := []
  pm := []
  irqInhibit := false
  sleeping := false
  pending := []
  inputs := []
  draws := 0
  trace := []

/-- The machine right after reset (70_reset_and_hazards.md R430), on profile `REF`. -/
def State.reset : State := State.resetOf Cfg.atReset

end Sys2Proof.Machine
end

