-- ==== Sys2Proof/Machine/Bits.lean ====
section
/-! DEFINITION. Bit-field helpers (00_scope.md R10 to R13): the low bits of a value, one bit of a byte replaced, the two
bytes of a word. -/

namespace Sys2Proof.Machine

/-- `trunc_n(v)`, kept in the width of `v` (00_scope.md R11): `v` modulo 2^n. -/
def lowBits {w : Nat} (n : Nat) (v : BitVec w) : BitVec w := BitVec.ofNat w (v.toNat % 2 ^ n)

/-- The byte with bit `b` set to `x`: `v | (1 << b)` or `v & ~(1 << b)` (41_bit_and_others.md R230, R231, R233). -/
def withBit (v : Byte) (b : BitVec 3) (x : Bool) : Byte :=
  if x then v ||| (1#8 <<< b.toNat) else v &&& ~~~(1#8 <<< b.toNat)

/-- Bit `b` of a byte, `v[b]` (00_scope.md R10). -/
def bitOf (v : Byte) (b : BitVec 3) : Bool := v.getLsbD b.toNat

/-- The low byte of a 16-bit value. -/
def lowByte (v : BitVec 16) : Byte := v.extractLsb' 0 8

/-- The high byte of a 16-bit value. -/
def highByte (v : BitVec 16) : Byte := v.extractLsb' 8 8

end Sys2Proof.Machine
end

