-- ==== Sys2Proof/Machine/Ops.lean ====
section
/-! DEFINITION. The named operations the meanings are written in: register, pointer, I/O, data-memory, program-memory and
stack access, and the machine's one exception, interrupt entry, with the return from it. -/

namespace Sys2Proof.Machine

/-- A computation that may raise one of the outcomes of 60_exceptions.md table R381. -/
abbrev Res (α : Type) := Except Fault α

/-- The outcome of a step that a computation of the next state gives. -/
def Res.toOutcome (r : Res State) : Host.Outcome State Fault Refusal :=
  match r with
  | .ok s => .next s
  | .error f => .fault f

/-! ## Registers (10_state.md sections 1 to 5) -/

/-- `R[d]` (00_scope.md R12). -/
def State.reg (s : State) (d : Reg) : Byte := s.regs[d.toNat]'d.isLt

/-- `R[d] <- v` (00_scope.md R12). -/
def State.setReg (s : State) (d : Reg) (v : Byte) : State := { s with regs := s.regs.set d.toNat v d.isLt }

/-- `RP[p]`, the pair whose low register is `p` (10_state.md R21). -/
def State.pair (s : State) (p : Reg) : BitVec 16 := s.reg (p + 1) ++ s.reg p

/-- `RP[p] <- v` (00_scope.md R12). -/
def State.setPair (s : State) (p : Reg) (v : BitVec 16) : State :=
  (s.setReg p (lowByte v)).setReg (p + 1) (highByte v)

/-- `SREG <- v`, all eight flags (10_state.md R27). -/
def State.setSreg (s : State) (v : Byte) : State := { s with sreg := v }

/-- `pc <- v`. -/
def State.setPc (s : State) (v : ProgAddr) : State := { s with pc := v }

/-- `trunc_PC_BITS(v)` (10_state.md R26). -/
def truncPc (c : Cfg) (v : ProgAddr) : ProgAddr := lowBits c.pcBits v

/-- The word address `n` words on, modulo 2^PC_BITS (10_state.md R26). -/
def State.pcPlus (s : State) (n : Nat) : ProgAddr := truncPc s.cfg (s.pc + BitVec.ofNat 22 n)

/-- `pc <- pc + n` modulo 2^PC_BITS, the end of an instruction of `n` words (10_state.md R26, 00_scope.md R16). -/
def State.advance (s : State) (n : Nat) : State := s.setPc (s.pcPlus n)

/-- SP as one value of SP_BITS bits (10_state.md R38). -/
def State.spVal (s : State) : BitVec 16 := lowBits s.cfg.spBits s.sp

/-- `SP <- v`, modulo 2^SP_BITS (10_state.md R38). -/
def State.setSp (s : State) (v : BitVec 16) : State := { s with sp := lowBits s.cfg.spBits v }

/-- The AVR1 hardware stack replaced (10_state.md R40). -/
def State.setHwStack (s : State) (hs : List ProgAddr) : State := { s with hwStack := hs }

/-- `irq_inhibit <- b` (60_exceptions.md R393). -/
def State.setIrqInhibit (s : State) (b : Bool) : State := { s with irqInhibit := b }

/-- `sleeping <- b` (60_exceptions.md R405). -/
def State.setSleeping (s : State) (b : Bool) : State := { s with sleeping := b }

/-- `PlatformEvent(e)` (60_exceptions.md R387). -/
def State.emit (s : State) (e : Event) : State := { s with trace := e :: s.trace }

/-- SRAM replaced (10_state.md R48 (b)). -/
def State.setDm (s : State) (m : Memory) : State := { s with dm := m }

/-! ## Extended-address registers (10_state.md R41, R42) -/

/-- The four RAMP registers. -/
inductive Ramp where
  | d | x | y | z
deriving DecidableEq, Repr

/-- `HAS_RAMPD`, `HAS_RAMPX`, `HAS_RAMPY`, `HAS_RAMPZ` (00_scope.md table R7). -/
def Ramp.present (c : Cfg) : Ramp → Bool
  | .d => c.hasRampd
  | .x => c.hasRampx
  | .y => c.hasRampy
  | .z => c.hasRampz

/-- The bits a RAMP register holds, whether or not it is implemented. -/
def State.rampRaw (s : State) : Ramp → Byte
  | .d => s.rampd
  | .x => s.rampx
  | .y => s.rampy
  | .z => s.rampz

/-- A RAMP register as it reads: its low RAMP_BITS bits, zero where it is absent (10_state.md R41, D26). -/
def State.ramp (s : State) (r : Ramp) : Byte :=
  if r.present s.cfg then lowBits s.cfg.rampBits (s.rampRaw r) else 0

/-- A write of a RAMP register: its low RAMP_BITS bits; nothing where it is absent (10_state.md R41, D26). -/
def State.setRamp (s : State) (r : Ramp) (v : Byte) : State :=
  if r.present s.cfg then
    match r with
    | .d => { s with rampd := lowBits s.cfg.rampBits v }
    | .x => { s with rampx := lowBits s.cfg.rampBits v }
    | .y => { s with rampy := lowBits s.cfg.rampBits v }
    | .z => { s with rampz := lowBits s.cfg.rampBits v }
  else s

/-- EIND as it reads: its low EIND_BITS bits, zero where it is absent (10_state.md R42, D26). -/
def State.eindVal (s : State) : Byte := if s.cfg.hasEind then lowBits s.cfg.eindBits s.eind else 0

/-- A write of EIND: its low EIND_BITS bits; nothing where it is absent (10_state.md R42, D26). -/
def State.setEind (s : State) (v : Byte) : State :=
  if s.cfg.hasEind then { s with eind := lowBits s.cfg.eindBits v } else s

/-! ## Pointers (42_transfer.md R265) -/

/-- The pointer registers X, Y, Z (10_state.md R21). -/
inductive Ptr where
  | x | y | z
deriving DecidableEq, Repr

/-- The low register of the pair: R26, R28, R30. -/
def Ptr.low : Ptr → Reg
  | .x => 26
  | .y => 28
  | .z => 30

/-- `RAMPP`. -/
def Ptr.ramp : Ptr → Ramp
  | .x => .x
  | .y => .y
  | .z => .z

/-- `W`: 16, or 16 + RAMP_BITS where the RAMP register exists (42_transfer.md R265). -/
def Ptr.width (c : Cfg) (p : Ptr) : Nat := if p.ramp.present c then 16 + c.rampBits else 16

/-- `PtrGet(P)`, in 24 bits (42_transfer.md R265). -/
def State.ptrGet (s : State) (p : Ptr) : DataAddr := s.ramp p.ramp ++ s.pair p.low

/-- `PtrSet(P, v)` (42_transfer.md R265). -/
def State.ptrSet (s : State) (p : Ptr) (v : DataAddr) : State :=
  (s.setPair p.low (v.extractLsb' 0 16)).setRamp p.ramp (v.extractLsb' 16 8)

/-- `PtrGet(P) + n` modulo 2^W (42_transfer.md R265). -/
def State.ptrPlus (s : State) (p : Ptr) (n : DataAddr) : DataAddr := lowBits (p.width s.cfg) (s.ptrGet p + n)

/-- `DataAddr(v)`: the address in DATA_ADDR_BITS bits (42_transfer.md R265). Log 29. -/
def dataAddr (c : Cfg) (v : DataAddr) : DataAddr := lowBits c.dataAddrBits v

/-- The effective address of the two-word LDS and STS: `RAMPD:k`, or k where RAMPD is absent (42_transfer.md R266). -/
def State.directAddr (s : State) (k : BitVec 16) : DataAddr := s.ramp .d ++ k

/-! ## Platform registers (20_memory.md R82) -/

/-- `PlatformRead(addr)`: a byte the platform chooses, a fresh free value at every read. Log 6. -/
def State.platformRead (s : State) (addr : DataAddr) : Byte × State :=
  (Config.platformByte s.draws addr.toNat, { s with draws := s.draws + 1 })

/-- `PlatformWrite(addr, v)`: an event. -/
def State.platformWrite (s : State) (addr : DataAddr) (v : Byte) : State := s.emit (.write addr v)

/-! ## I/O space (20_memory.md R81, 10_state.md table R45) -/

/-- The CPU registers that have an I/O address (10_state.md table R45). -/
inductive CpuReg where
  | sreg | sph | spl | eind | ramp (r : Ramp)
deriving DecidableEq, Repr

/-- The CPU register at an I/O address (10_state.md table R45). -/
def cpuRegAt (a : BitVec 6) : Option CpuReg :=
  if a = 0x3F then some .sreg
  else if a = 0x3E then some .sph
  else if a = 0x3D then some .spl
  else if a = 0x3C then some .eind
  else if a = 0x3B then some (.ramp .z)
  else if a = 0x3A then some (.ramp .y)
  else if a = 0x39 then some (.ramp .x)
  else if a = 0x38 then some (.ramp .d)
  else none

/-- The address belongs to the core on this variant. The two halves of SP do not where there is no SP (AVR1,
10_state.md R40); an absent RAMP register, EIND or SPH keeps its address, reads zero and ignores writes (D26). Log 9. -/
def CpuReg.ofCore (c : Cfg) : CpuReg → Bool
  | .sreg => true
  | .sph => c.stackKind == .dataSpace
  | .spl => c.stackKind == .dataSpace
  | .eind => true
  | .ramp _ => true

/-- A CPU register as it reads (20_memory.md R81). -/
def State.cpuRead (s : State) : CpuReg → Byte
  | .sreg => s.sreg
  | .sph => highByte s.spVal
  | .spl => lowByte s.spVal
  | .eind => s.eindVal
  | .ramp r => s.ramp r

/-- A write of a CPU register (20_memory.md R81). On XMEGA a write to SPL starts the hold-off (60_exceptions.md R393 (b),
log 18); with SP_BITS = 8 a write to SPH changes nothing (D26). -/
def State.cpuWrite (s : State) (r : CpuReg) (v : Byte) : State :=
  match r with
  | .sreg => s.setSreg v
  | .sph => s.setSp (v ++ lowByte s.spVal)
  | .spl =>
    let s := s.setSp (highByte s.spVal ++ v)
    if s.cfg.isXmega then s.setIrqInhibit true else s
  | .eind => s.setEind v
  | .ramp r => s.setRamp r v

/-- The data address of an I/O address (20_memory.md R80). -/
def ioDataAddr (c : Cfg) (a : BitVec 6) : DataAddr := BitVec.ofNat 24 (c.ioBase + a.toNat)

/-- The CPU register behind an I/O address on this variant; none means the platform answers (20_memory.md R81). -/
def ioTarget (c : Cfg) (a : BitVec 6) : Option CpuReg := (cpuRegAt a).filter fun r => r.ofCore c

/-- `IoRead(a)` (20_memory.md R81). -/
def State.ioRead (s : State) (a : BitVec 6) : Byte × State :=
  match ioTarget s.cfg a with
  | some r => (s.cpuRead r, s)
  | none => s.platformRead (ioDataAddr s.cfg a)

/-- `IoWrite(a, v)` (20_memory.md R81). -/
def State.ioWrite (s : State) (a : BitVec 6) (v : Byte) : State :=
  match ioTarget s.cfg a with
  | some r => s.cpuWrite r v
  | none => s.platformWrite (ioDataAddr s.cfg a) v

/-! ## Program memory (20_memory.md R84) -/

/-- The byte of program memory at a byte address, wherever it lies. -/
def State.pmByte (s : State) (ba : Nat) : Byte := (Memory.read .program s.pm ba).getD 0xFF

/-- `ProgWord(wa)`: low byte at the even byte address (20_memory.md R84). -/
def State.progWord (s : State) (wa : ProgAddr) : Res Word :=
  if wa.toNat < s.cfg.flashWords then .ok (s.pmByte (2 * wa.toNat + 1) ++ s.pmByte (2 * wa.toNat))
  else .error (.fetchOutOfRange wa.toNat)

/-- `ProgByte(ba)` (20_memory.md R84). -/
def State.progByte (s : State) (ba : Nat) : Res Byte :=
  if ba / 2 < s.cfg.flashWords then .ok (s.pmByte ba) else .error (.fetchOutOfRange (ba / 2))

/-! ## Data memory (20_memory.md R80) -/

/-- What a data address reaches, the first match of 20_memory.md R80; `outer` is everything after internal SRAM. -/
inductive Region where
  | register (d : Reg)
  | io (a : BitVec 6)
  | extIo
  | ram
  | outer
deriving DecidableEq, Repr

/-- The region of a data address, first match wins (20_memory.md R80). -/
def regionOf (c : Cfg) (addr : DataAddr) : Region :=
  let a := addr.toNat
  if c.regsInDataSpace && a ≤ 0x1F then .register (BitVec.ofNat 5 a)
  else if c.ioBase ≤ a && a < c.ioBase + 64 then .io (BitVec.ofNat 6 (a - c.ioBase))
  else if c.inExtIo a then .extIo
  else if c.ramStart ≤ a && a ≤ c.ramEnd then .ram
  else .outer

/-- `MemRead(addr, 1)` (20_memory.md R80): the byte, and the state after a platform read. An SRAM byte nothing has
written raises `ReadOfUnspecified` (60_exceptions.md table R381). -/
def State.memRead (s : State) (addr : DataAddr) : Res (Byte × State) :=
  match regionOf s.cfg addr with
  | .register d => .ok (s.reg d, s)
  | .io a => .ok (s.ioRead a)
  | .extIo => .ok (s.platformRead addr)
  | .ram =>
    match Memory.read .data s.dm addr.toNat with
    | some v => .ok (v, s)
    | none => .error (.readOfUnspecified addr)
  | .outer =>
    if s.cfg.inFlashWindow addr.toNat then
      (s.progByte (addr.toNat - s.cfg.tinyFlashDataBase)).map fun v => (v, s)
    else if s.cfg.inPlatform addr.toNat then .ok (s.platformRead addr)
    else .error (.dataAccessOutOfRange addr)

/-- `MemWrite(addr, 1, v)` (20_memory.md R80). -/
def State.memWrite (s : State) (addr : DataAddr) (v : Byte) : Res State :=
  match regionOf s.cfg addr with
  | .register d => .ok (s.setReg d v)
  | .io a => .ok (s.ioWrite a v)
  | .extIo => .ok (s.platformWrite addr v)
  | .ram => .ok (s.setDm (Memory.write .data s.dm addr.toNat v))
  | .outer =>
    if s.cfg.inWritablePlatform addr.toNat then .ok (s.platformWrite addr v)
    else .error (.dataAccessOutOfRange addr)

/-! ## Stack (20_memory.md R87, R88) -/

/-- `zext(SP)`: the high bits of a stack address are zero (10_state.md R38, D22). -/
def stackAddr (v : BitVec 16) : DataAddr := v.setWidth 24

/-- `Push8(v)` (20_memory.md R87). SP is read before the byte is written. Log 10. -/
def State.push8 (s : State) (v : Byte) : Res State :=
  (s.memWrite (stackAddr s.spVal) v).map fun t => t.setSp (s.spVal - 1)

/-- `Pop8()` (20_memory.md R87). -/
def State.pop8 (s : State) : Res (Byte × State) :=
  let s := s.setSp (s.spVal + 1)
  s.memRead (stackAddr s.spVal)

/-- `PushPC(v)` (20_memory.md R88): low byte first, on AVR1 one entry of the hardware stack. -/
def State.pushPc (s : State) (v : ProgAddr) : Res State :=
  match s.cfg.stackKind with
  | .hardware3 => if 3 ≤ s.hwStack.length then .error .hardwareStackOverflow else .ok (s.setHwStack (v :: s.hwStack))
  | .dataSpace => do
    let s ← s.push8 (v.extractLsb' 0 8)
    let s ← s.push8 (v.extractLsb' 8 8)
    if s.cfg.pcStackBytes = 3 then s.push8 (v.extractLsb' 16 8) else pure s

/-- `PopPC()` (20_memory.md R88): bits above PC_BITS are discarded. -/
def State.popPc (s : State) : Res (ProgAddr × State) :=
  match s.cfg.stackKind with
  | .hardware3 =>
    match s.hwStack with
    | v :: rest => .ok (v, s.setHwStack rest)
    | [] => .error .hardwareStackUnderflow
  | .dataSpace => do
    let (b2, s) ← if s.cfg.pcStackBytes = 3 then s.pop8 else pure ((0x00 : Byte), s)
    let (b1, s) ← s.pop8
    let (b0, s) ← s.pop8
    pure (truncPc s.cfg ((b2 ++ b1 ++ b0).setWidth 22), s)

/-! ## The interrupt, the machine's one exception (60_exceptions.md R392, R394) -/

/-- SREG bit numbers of I and T (10_state.md R27). -/
def bitI : BitVec 3 := 7
def bitT : BitVec 3 := 6

/-- `VectorAddr(n)` (60_exceptions.md R389), in PC_BITS bits. Log 28. -/
def vectorAddr (c : Cfg) (n : Nat) : ProgAddr :=
  truncPc c (BitVec.ofNat 22 (c.vectorBase + n * c.vectorStride))

/-- Interrupt entry for source `n` (60_exceptions.md R392): the core wakes, the pc is pushed, I is cleared (not on XMEGA),
the pc goes to the vector slot, the platform is told. -/
def State.takeInterrupt (s : State) (n : Nat) : Res State :=
  ((s.setSleeping false).pushPc s.pc).map fun t =>
    let t := if t.cfg.isXmega then t else t.setSreg (withBit t.sreg bitI false)
    (t.setPc (vectorAddr t.cfg n)).emit (.irqTaken n)

/-- Return from interrupt (60_exceptions.md R394, 44_call.md R348): the pc is popped, I is set (on XMEGA the platform is
told instead), and the next instruction is protected from interrupts. -/
def State.returnFromInterrupt (s : State) : Res State :=
  s.popPc.map fun (v, t) =>
    let t := if t.cfg.isXmega then t.emit .handlerEnded else t.setSreg (withBit t.sreg bitI true)
    (t.setPc v).setIrqInhibit true

end Sys2Proof.Machine
end

