-- ==== Sys2Proof/Machine/Flags.lean ====
section
/-! DEFINITION. SREG's flags and every flag computation (10_state.md R27 to R37, 40_arithmetic.md R160). A flag function
takes the old SREG and gives the new one; the flags it does not write keep their bits. -/

namespace Sys2Proof.Machine

/-- SREG.C, bit 0 (10_state.md R27). -/
def flagC (sr : Byte) : Bool := sr.getLsbD 0

/-- SREG.Z, bit 1 (10_state.md R27). -/
def flagZ (sr : Byte) : Bool := sr.getLsbD 1

/-- SREG.N, bit 2 (10_state.md R27). -/
def flagN (sr : Byte) : Bool := sr.getLsbD 2

/-- SREG.V, bit 3 (10_state.md R27). -/
def flagV (sr : Byte) : Bool := sr.getLsbD 3

/-- SREG.S, bit 4 (10_state.md R27). -/
def flagS (sr : Byte) : Bool := sr.getLsbD 4

/-- SREG.H, bit 5 (10_state.md R27). -/
def flagH (sr : Byte) : Bool := sr.getLsbD 5

/-- SREG.T, bit 6 (10_state.md R27). -/
def flagT (sr : Byte) : Bool := sr.getLsbD 6

/-- SREG.I, bit 7 (10_state.md R27). -/
def flagI (sr : Byte) : Bool := sr.getLsbD 7

/-- The byte of the eight flags, I T H S V N Z C from bit 7 down (10_state.md R27). -/
def packSreg (i t h s v n z c : Bool) : Byte :=
  BitVec.ofBool i ++ BitVec.ofBool t ++ BitVec.ofBool h ++ BitVec.ofBool s ++ BitVec.ofBool v ++ BitVec.ofBool n ++
  BitVec.ofBool z ++ BitVec.ofBool c

/-- SREG with H, V, N, Z, C written and S = N xor V (10_state.md R32); I and T kept. -/
def writeHVNZC (sr : Byte) (h v n z c : Bool) : Byte := packSreg (flagI sr) (flagT sr) h (n ^^ v) v n z c

/-- SREG with V, N, Z, C written and S = N xor V; I, T and H kept. -/
def writeVNZC (sr : Byte) (v n z c : Bool) : Byte := writeHVNZC sr (flagH sr) v n z c

/-- SREG with V, N, Z written and S = N xor V; I, T, H and C kept. -/
def writeVNZ (sr : Byte) (v n z : Bool) : Byte := writeVNZC sr v n z (flagC sr)

/-- SREG with Z and C written; the other six kept. -/
def writeZC (sr : Byte) (z c : Bool) : Byte :=
  packSreg (flagI sr) (flagT sr) (flagH sr) (flagS sr) (flagV sr) (flagN sr) z c

/-- The result of `AddFlags8` (40_arithmetic.md R160). -/
def add8 (a b : Byte) (cin : Bool) : Byte := a + b + (BitVec.ofBool cin).setWidth 8

/-- The SREG of `AddFlags8` (40_arithmetic.md R160): ADD, ADC. -/
def addFlags8 (sr a b : Byte) (cin : Bool) : Byte :=
  let r := add8 a b cin
  let a3 := a.getLsbD 3; let b3 := b.getLsbD 3; let r3 := r.getLsbD 3
  let a7 := a.getLsbD 7; let b7 := b.getLsbD 7; let r7 := r.getLsbD 7
  writeHVNZC sr
    (h := (a3 && b3) || (b3 && !r3) || (!r3 && a3))
    (v := (a7 && b7 && !r7) || (!a7 && !b7 && r7))
    (n := r7)
    (z := r == 0)
    (c := (a7 && b7) || (b7 && !r7) || (!r7 && a7))

/-- The result of `SubFlags8` (40_arithmetic.md R160). -/
def sub8 (a b : Byte) (bin : Bool) : Byte := a - b - (BitVec.ofBool bin).setWidth 8

/-- The SREG of `SubFlags8` (40_arithmetic.md R160): SUB, SUBI, SBC, SBCI, CP, CPC, CPI, NEG. With `keepZ` Z can only be
cleared (10_state.md R36). -/
def subFlags8 (sr a b : Byte) (bin keepZ : Bool) : Byte :=
  let r := sub8 a b bin
  let a3 := a.getLsbD 3; let b3 := b.getLsbD 3; let r3 := r.getLsbD 3
  let a7 := a.getLsbD 7; let b7 := b.getLsbD 7; let r7 := r.getLsbD 7
  writeHVNZC sr
    (h := (!a3 && b3) || (b3 && r3) || (r3 && !a3))
    (v := (a7 && !b7 && !r7) || (!a7 && b7 && r7))
    (n := r7)
    (z := if keepZ then r == 0 && flagZ sr else r == 0)
    (c := (!a7 && b7) || (b7 && r7) || (r7 && !a7))

/-- `LogicFlags8` (40_arithmetic.md R160): AND, ANDI, OR, ORI, EOR. -/
def logicFlags8 (sr r : Byte) : Byte := writeVNZ sr false (r.getLsbD 7) (r == 0)

/-- `LogicFlags8`, then C <- 1: COM (40_arithmetic.md R174). -/
def comFlags (sr r : Byte) : Byte := writeVNZC sr false (r.getLsbD 7) (r == 0) true

/-- The flags of INC (40_arithmetic.md R179): C and H kept. -/
def incFlags (sr r : Byte) : Byte := writeVNZ sr (r == 0x80) (r.getLsbD 7) (r == 0)

/-- The flags of DEC (40_arithmetic.md R180): C and H kept. -/
def decFlags (sr r : Byte) : Byte := writeVNZ sr (r == 0x7F) (r.getLsbD 7) (r == 0)

/-- The flags of ADIW (40_arithmetic.md R163): `a` before, `r` after. -/
def adiwFlags (sr : Byte) (a r : BitVec 16) : Byte :=
  let a15 := a.getLsbD 15; let r15 := r.getLsbD 15
  writeVNZC sr (!a15 && r15) r15 (r == 0) (!r15 && a15)

/-- The flags of SBIW (40_arithmetic.md R168): `a` before, `r` after. -/
def sbiwFlags (sr : Byte) (a r : BitVec 16) : Byte :=
  let a15 := a.getLsbD 15; let r15 := r.getLsbD 15
  writeVNZC sr (a15 && !r15) r15 (r == 0) (r15 && !a15)

/-- The flags of LSR, ROR and ASR (41_bit_and_others.md R220 to R222): C is the bit shifted out, V = N xor C. -/
def shiftFlags (sr a r : Byte) : Byte :=
  let c := a.getLsbD 0; let n := r.getLsbD 7
  writeVNZC sr (n ^^ c) n (r == 0) c

/-- The flags of a multiply (40_arithmetic.md R181 to R186): C is bit 15 of the product, Z looks at the value written. -/
def mulFlags (sr : Byte) (p res : BitVec 16) : Byte := writeZC sr (res == 0) (p.getLsbD 15)

end Sys2Proof.Machine
end

