-- ==== Sys2Proof/Syntax.lean ====
section
/-! DEFINITION. The instructions: one constructor per row of spec/opcode_table.json (30_encoding.md table R130), in the
table's order. `d` and `r` are register numbers, already mapped from the short fields (10_state.md R22); for stores,
OUT, PUSH, SBRC, SBRS and BST `d` is the register that is read (30_encoding.md R113). `k` is a constant, displacement,
offset or address, `q` the displacement of LDD and STD, `a` an I/O address (of LDS_TINY and STS_TINY the data address),
`b` a bit number. The rows the source reserves or does not list carry the word itself. -/

namespace Sys2Proof

/-- An instruction word (with its second word, where it has one), decoded. -/
inductive Instr where
  /-- NOP, `0000 0000 0000 0000` (R234). -/
  | nop
  /-- UNLISTED_0000_0000, `0000 0000 xxxx xxxx` (R141). -/
  | unlisted0000 (w : Word)
  /-- MOVW, `0000 0001 DDDD RRRR` (R261). -/
  | movw (d : Reg) (r : Reg)
  /-- MULS, `0000 0010 dddd rrrr` (R181). -/
  | muls (d : Reg) (r : Reg)
  /-- MULSU, `0000 0011 0ddd 0rrr` (R182). -/
  | mulsu (d : Reg) (r : Reg)
  /-- FMUL, `0000 0011 0ddd 1rrr` (R183). -/
  | fmul (d : Reg) (r : Reg)
  /-- FMULS, `0000 0011 1ddd 0rrr` (R184). -/
  | fmuls (d : Reg) (r : Reg)
  /-- FMULSU, `0000 0011 1ddd 1rrr` (R185). -/
  | fmulsu (d : Reg) (r : Reg)
  /-- CPC, `0000 01rd dddd rrrr` (R177). -/
  | cpc (d : Reg) (r : Reg)
  /-- SBC, `0000 10rd dddd rrrr` (R166). -/
  | sbc (d : Reg) (r : Reg)
  /-- ADD, `0000 11rd dddd rrrr` (R161). -/
  | add (d : Reg) (r : Reg)
  /-- CPSE, `0001 00rd dddd rrrr` (R362). -/
  | cpse (d : Reg) (r : Reg)
  /-- CP, `0001 01rd dddd rrrr` (R176). -/
  | cp (d : Reg) (r : Reg)
  /-- SUB, `0001 10rd dddd rrrr` (R164). -/
  | sub (d : Reg) (r : Reg)
  /-- ADC, `0001 11rd dddd rrrr` (R162). -/
  | adc (d : Reg) (r : Reg)
  /-- AND, `0010 00rd dddd rrrr` (R169). -/
  | and (d : Reg) (r : Reg)
  /-- EOR, `0010 01rd dddd rrrr` (R173). -/
  | eor (d : Reg) (r : Reg)
  /-- OR, `0010 10rd dddd rrrr` (R171). -/
  | or (d : Reg) (r : Reg)
  /-- MOV, `0010 11rd dddd rrrr` (R260). -/
  | mov (d : Reg) (r : Reg)
  /-- CPI, `0011 KKKK dddd KKKK` (R178). -/
  | cpi (d : Reg) (k : Byte)
  /-- SBCI, `0100 KKKK dddd KKKK` (R167). -/
  | sbci (d : Reg) (k : Byte)
  /-- SUBI, `0101 KKKK dddd KKKK` (R165). -/
  | subi (d : Reg) (k : Byte)
  /-- ORI, `0110 KKKK dddd KKKK` (R172). -/
  | ori (d : Reg) (k : Byte)
  /-- ANDI, `0111 KKKK dddd KKKK` (R170). -/
  | andi (d : Reg) (k : Byte)
  /-- LDD_Z, `10k0 kk0d dddd 0kkk` (R271). -/
  | lddZ (d : Reg) (q : BitVec 6)
  /-- LDD_Y, `10k0 kk0d dddd 1kkk` (R271). -/
  | lddY (d : Reg) (q : BitVec 6)
  /-- STD_Z, `10k0 kk1d dddd 0kkk` (R272). -/
  | stdZ (d : Reg) (q : BitVec 6)
  /-- STD_Y, `10k0 kk1d dddd 1kkk` (R272). -/
  | stdY (d : Reg) (q : BitVec 6)
  /-- LDS, `1001 000d dddd 0000` + 16 address bits (R266). -/
  | lds (d : Reg) (k : BitVec 16)
  /-- LD_ZINC, `1001 000d dddd 0001` (R273). -/
  | ldZinc (d : Reg)
  /-- LD_ZDEC, `1001 000d dddd 0010` (R273). -/
  | ldZdec (d : Reg)
  /-- UNLISTED_LD_0011, `1001 000d dddd 0011` (R141). -/
  | unlistedLd0011 (w : Word)
  /-- LPM_RD_Z, `1001 000d dddd 0100` (R281). -/
  | lpmRdZ (d : Reg)
  /-- LPM_RD_ZINC, `1001 000d dddd 0101` (R282). -/
  | lpmRdZinc (d : Reg)
  /-- ELPM_RD_Z, `1001 000d dddd 0110` (R284). -/
  | elpmRdZ (d : Reg)
  /-- ELPM_RD_ZINC, `1001 000d dddd 0111` (R285). -/
  | elpmRdZinc (d : Reg)
  /-- UNLISTED_LD_1000, `1001 000d dddd 1000` (R141). -/
  | unlistedLd1000 (w : Word)
  /-- LD_YINC, `1001 000d dddd 1001` (R273). -/
  | ldYinc (d : Reg)
  /-- LD_YDEC, `1001 000d dddd 1010` (R273). -/
  | ldYdec (d : Reg)
  /-- UNLISTED_LD_1011, `1001 000d dddd 1011` (R141). -/
  | unlistedLd1011 (w : Word)
  /-- LD_X, `1001 000d dddd 1100` (R273). -/
  | ldX (d : Reg)
  /-- LD_XINC, `1001 000d dddd 1101` (R273). -/
  | ldXinc (d : Reg)
  /-- LD_XDEC, `1001 000d dddd 1110` (R273). -/
  | ldXdec (d : Reg)
  /-- POP, `1001 000d dddd 1111` (R297). -/
  | pop (d : Reg)
  /-- STS, `1001 001d dddd 0000` + 16 address bits (R267). -/
  | sts (d : Reg) (k : BitVec 16)
  /-- ST_ZINC, `1001 001d dddd 0001` (R274). -/
  | stZinc (d : Reg)
  /-- ST_ZDEC, `1001 001d dddd 0010` (R274). -/
  | stZdec (d : Reg)
  /-- UNLISTED_ST_0011, `1001 001d dddd 0011` (R141). -/
  | unlistedSt0011 (w : Word)
  /-- XCH, `1001 001d dddd 0100` (R300). -/
  | xch (d : Reg)
  /-- LAS, `1001 001d dddd 0101` (R301). -/
  | las (d : Reg)
  /-- LAC, `1001 001d dddd 0110` (R302). -/
  | lac (d : Reg)
  /-- LAT, `1001 001d dddd 0111` (R303). -/
  | lat (d : Reg)
  /-- UNLISTED_ST_1000, `1001 001d dddd 1000` (R141). -/
  | unlistedSt1000 (w : Word)
  /-- ST_YINC, `1001 001d dddd 1001` (R274). -/
  | stYinc (d : Reg)
  /-- ST_YDEC, `1001 001d dddd 1010` (R274). -/
  | stYdec (d : Reg)
  /-- UNLISTED_ST_1011, `1001 001d dddd 1011` (R141). -/
  | unlistedSt1011 (w : Word)
  /-- ST_X, `1001 001d dddd 1100` (R274). -/
  | stX (d : Reg)
  /-- ST_XINC, `1001 001d dddd 1101` (R274). -/
  | stXinc (d : Reg)
  /-- ST_XDEC, `1001 001d dddd 1110` (R274). -/
  | stXdec (d : Reg)
  /-- PUSH, `1001 001d dddd 1111` (R296). -/
  | push (d : Reg)
  /-- COM, `1001 010d dddd 0000` (R174). -/
  | com (d : Reg)
  /-- NEG, `1001 010d dddd 0001` (R175). -/
  | neg (d : Reg)
  /-- SWAP, `1001 010d dddd 0010` (R223). -/
  | swap (d : Reg)
  /-- INC, `1001 010d dddd 0011` (R179). -/
  | inc (d : Reg)
  /-- RESERVED_9404, `1001 010d dddd 0100` (R140). -/
  | reserved9404 (w : Word)
  /-- ASR, `1001 010d dddd 0101` (R222). -/
  | asr (d : Reg)
  /-- LSR, `1001 010d dddd 0110` (R220). -/
  | lsr (d : Reg)
  /-- ROR, `1001 010d dddd 0111` (R221). -/
  | ror (d : Reg)
  /-- BSET, `1001 0100 0bbb 1000` (R226). -/
  | bset (b : BitVec 3)
  /-- BCLR, `1001 0100 1bbb 1000` (R227). -/
  | bclr (b : BitVec 3)
  /-- RET, `1001 0101 0000 1000` (R347). -/
  | ret
  /-- RETI, `1001 0101 0001 1000` (R348). -/
  | reti
  /-- RESERVED_9528, `1001 0101 001x 1000` (R140). -/
  | reserved9528 (w : Word)
  /-- RESERVED_9548, `1001 0101 01xx 1000` (R140). -/
  | reserved9548 (w : Word)
  /-- SLEEP, `1001 0101 1000 1000` (R236). -/
  | sleep
  /-- BREAK, `1001 0101 1001 1000` (R238). -/
  | break_
  /-- WDR, `1001 0101 1010 1000` (R237). -/
  | wdr
  /-- RESERVED_95B8, `1001 0101 1011 1000` (R140). -/
  | reserved95b8 (w : Word)
  /-- LPM, `1001 0101 1100 1000` (R280). -/
  | lpm
  /-- ELPM, `1001 0101 1101 1000` (R283). -/
  | elpm
  /-- SPM, `1001 0101 1110 1000` (R293). -/
  | spm
  /-- SPM_ZINC, `1001 0101 1111 1000` (R294). -/
  | spmZinc
  /-- IJMP, `1001 0100 0000 1001` (R321). -/
  | ijmp
  /-- EIJMP, `1001 0100 0001 1001` (R322). -/
  | eijmp
  /-- ICALL, `1001 0101 0000 1001` (R342). -/
  | icall
  /-- EICALL, `1001 0101 0001 1001` (R343). -/
  | eicall
  /-- UNLISTED_94x9, `1001 010x xxxx 1001` (R141). -/
  | unlisted94x9 (w : Word)
  /-- DEC, `1001 010d dddd 1010` (R180). -/
  | dec (d : Reg)
  /-- DES, `1001 0100 kkkk 1011` (R189). -/
  | des (k : BitVec 4)
  /-- UNLISTED_95xB, `1001 0101 xxxx 1011` (R141). -/
  | unlisted95xB (w : Word)
  /-- JMP, `1001 010k kkkk 110k` + 16 address bits (R323). -/
  | jmp (k : BitVec 22)
  /-- CALL, `1001 010k kkkk 111k` + 16 address bits (R344). -/
  | call (k : BitVec 22)
  /-- ADIW, `1001 0110 kkpp kkkk` (R163). -/
  | adiw (d : Reg) (k : BitVec 6)
  /-- SBIW, `1001 0111 kkpp kkkk` (R168). -/
  | sbiw (d : Reg) (k : BitVec 6)
  /-- CBI, `1001 1000 aaaa abbb` (R231). -/
  | cbi (a : BitVec 5) (b : BitVec 3)
  /-- SBIC, `1001 1001 aaaa abbb` (R365). -/
  | sbic (a : BitVec 5) (b : BitVec 3)
  /-- SBI, `1001 1010 aaaa abbb` (R230). -/
  | sbi (a : BitVec 5) (b : BitVec 3)
  /-- SBIS, `1001 1011 aaaa abbb` (R366). -/
  | sbis (a : BitVec 5) (b : BitVec 3)
  /-- MUL, `1001 11rd dddd rrrr` (R186). -/
  | mul (d : Reg) (r : Reg)
  /-- IN, `1011 0aad dddd aaaa` (R290). -/
  | in_ (d : Reg) (a : BitVec 6)
  /-- OUT, `1011 1aad dddd aaaa` (R291). -/
  | out (d : Reg) (a : BitVec 6)
  /-- RJMP, `1100 kkkk kkkk kkkk` (R320). -/
  | rjmp (k : BitVec 12)
  /-- RCALL, `1101 kkkk kkkk kkkk` (R341). -/
  | rcall (k : BitVec 12)
  /-- LDI, `1110 KKKK dddd KKKK` (R262). -/
  | ldi (d : Reg) (k : Byte)
  /-- BRBS, `1111 00kk kkkk kbbb` (R367). -/
  | brbs (b : BitVec 3) (k : BitVec 7)
  /-- BRBC, `1111 01kk kkkk kbbb` (R368). -/
  | brbc (b : BitVec 3) (k : BitVec 7)
  /-- BLD, `1111 100d dddd 0bbb` (R233). -/
  | bld (d : Reg) (b : BitVec 3)
  /-- BST, `1111 101d dddd 0bbb` (R232). -/
  | bst (d : Reg) (b : BitVec 3)
  /-- SBRC, `1111 110d dddd 0bbb` (R363). -/
  | sbrc (d : Reg) (b : BitVec 3)
  /-- SBRS, `1111 111d dddd 0bbb` (R364). -/
  | sbrs (d : Reg) (b : BitVec 3)
  /-- RESERVED_F808, `1111 1xxd dddd 1bbb` (R140). -/
  | reservedF808 (w : Word)
  /-- LDS_TINY, `1010 0kkk dddd kkkk` (R268). -/
  | ldsTiny (d : Reg) (a : Byte)
  /-- STS_TINY, `1010 1kkk dddd kkkk` (R269). -/
  | stsTiny (d : Reg) (a : Byte)
deriving DecidableEq, Repr

end Sys2Proof
end

