-- ==== Sys2Proof/WellFormed.lean ====
section
/-! DEFINITION. Which instructions can stand in a word: the operand limits of 10_state.md R22 and, for the reserved and
unlisted rows, that the word carried is one of the row's (30_encoding.md table R130, R140, R141). -/

namespace Sys2Proof

/-- R16 to R31: the registers of an 8-bit immediate, of MULS and of the one-word LDS and STS (10_state.md R22). -/
def highReg (d : Reg) : Bool := 16 ≤ d.toNat

/-- R16 to R23: the registers of MULSU, FMUL, FMULS, FMULSU (10_state.md R22). -/
def mulReg (d : Reg) : Bool := 16 ≤ d.toNat && d.toNat ≤ 23

/-- An even register: the low one of a pair MOVW names (10_state.md R22). -/
def evenReg (d : Reg) : Bool := d.toNat % 2 == 0

/-- R24, R26, R28, R30: the low register of a pair ADIW and SBIW name (10_state.md R22). -/
def pairReg (d : Reg) : Bool := evenReg d && 24 ≤ d.toNat

/-- 0x40 to 0xBF: the data addresses of the one-word LDS and STS (30_encoding.md R123). -/
def tinyAddr (a : Byte) : Bool := 0x40 ≤ a.toNat && a.toNat ≤ 0xBF

/-- The word lies in the row with this mask and match (30_encoding.md R130). -/
def inRow (mask value w : Word) : Bool := w &&& mask == value

/-- The operands are ones the instruction's word can name. -/
def Instr.wellFormed : Instr → Bool
  | .nop => true
  | .unlisted0000 w => inRow 0xFF00 0x0000 w && w != 0x0000
  | .movw d r => evenReg d && evenReg r
  | .muls d r => highReg d && highReg r
  | .mulsu d r => mulReg d && mulReg r
  | .fmul d r => mulReg d && mulReg r
  | .fmuls d r => mulReg d && mulReg r
  | .fmulsu d r => mulReg d && mulReg r
  | .cpc _ _ => true
  | .sbc _ _ => true
  | .add _ _ => true
  | .cpse _ _ => true
  | .cp _ _ => true
  | .sub _ _ => true
  | .adc _ _ => true
  | .and _ _ => true
  | .eor _ _ => true
  | .or _ _ => true
  | .mov _ _ => true
  | .cpi d _ => highReg d
  | .sbci d _ => highReg d
  | .subi d _ => highReg d
  | .ori d _ => highReg d
  | .andi d _ => highReg d
  | .lddZ _ _ => true
  | .lddY _ _ => true
  | .stdZ _ _ => true
  | .stdY _ _ => true
  | .lds _ _ => true
  | .ldZinc _ => true
  | .ldZdec _ => true
  | .unlistedLd0011 w => inRow 0xFE0F 0x9003 w
  | .lpmRdZ _ => true
  | .lpmRdZinc _ => true
  | .elpmRdZ _ => true
  | .elpmRdZinc _ => true
  | .unlistedLd1000 w => inRow 0xFE0F 0x9008 w
  | .ldYinc _ => true
  | .ldYdec _ => true
  | .unlistedLd1011 w => inRow 0xFE0F 0x900B w
  | .ldX _ => true
  | .ldXinc _ => true
  | .ldXdec _ => true
  | .pop _ => true
  | .sts _ _ => true
  | .stZinc _ => true
  | .stZdec _ => true
  | .unlistedSt0011 w => inRow 0xFE0F 0x9203 w
  | .xch _ => true
  | .las _ => true
  | .lac _ => true
  | .lat _ => true
  | .unlistedSt1000 w => inRow 0xFE0F 0x9208 w
  | .stYinc _ => true
  | .stYdec _ => true
  | .unlistedSt1011 w => inRow 0xFE0F 0x920B w
  | .stX _ => true
  | .stXinc _ => true
  | .stXdec _ => true
  | .push _ => true
  | .com _ => true
  | .neg _ => true
  | .swap _ => true
  | .inc _ => true
  | .reserved9404 w => inRow 0xFE0F 0x9404 w
  | .asr _ => true
  | .lsr _ => true
  | .ror _ => true
  | .bset _ => true
  | .bclr _ => true
  | .ret => true
  | .reti => true
  | .reserved9528 w => inRow 0xFFEF 0x9528 w
  | .reserved9548 w => inRow 0xFFCF 0x9548 w
  | .sleep => true
  | .break_ => true
  | .wdr => true
  | .reserved95b8 w => inRow 0xFFFF 0x95B8 w
  | .lpm => true
  | .elpm => true
  | .spm => true
  | .spmZinc => true
  | .ijmp => true
  | .eijmp => true
  | .icall => true
  | .eicall => true
  | .unlisted94x9 w => inRow 0xFE0F 0x9409 w && w &&& 0xFEEF != 0x9409
  | .dec _ => true
  | .des _ => true
  | .unlisted95xB w => inRow 0xFF0F 0x950B w
  | .jmp _ => true
  | .call _ => true
  | .adiw d _ => pairReg d
  | .sbiw d _ => pairReg d
  | .cbi _ _ => true
  | .sbic _ _ => true
  | .sbi _ _ => true
  | .sbis _ _ => true
  | .mul _ _ => true
  | .in_ _ _ => true
  | .out _ _ => true
  | .rjmp _ => true
  | .rcall _ => true
  | .ldi d _ => highReg d
  | .brbs _ _ => true
  | .brbc _ _ => true
  | .bld _ _ => true
  | .bst _ _ => true
  | .sbrc _ _ => true
  | .sbrs _ _ => true
  | .reservedF808 w => inRow 0xF808 0xF808 w
  | .ldsTiny d a => highReg d && tinyAddr a
  | .stsTiny d a => highReg d && tinyAddr a

end Sys2Proof
end

