-- ==== Sys2Proof/Decode.lean ====
section
/-! DEFINITION. The decoder: table R130 of 30_encoding.md as a list of rows, each with its mask, its match and the
operands its format names (table R112); and the encoder, written from the same table. -/

namespace Sys2Proof

/-- Why bytes are no instruction. -/
inductive DecodeError where
  /-- The bytes end before the instruction does. -/
  | truncated
  /-- No row of the table has this first word (no word is such: 30_encoding.md R130). -/
  | noRow (w : Word)
deriving DecidableEq, Repr

/-- `IsTwoWord` (30_encoding.md R111): LDS, STS, JMP, CALL, told by the pattern alone. -/
def isTwoWord (w : Word) : Bool :=
  w &&& 0xFE0F == 0x9000 || w &&& 0xFE0F == 0x9200 || w &&& 0xFE0E == 0x940C || w &&& 0xFE0E == 0x940E

/-- `Length` (30_encoding.md R111), in words. -/
def wordLength (w : Word) : Nat := if isTwoWord w then 2 else 1

/-- `d = w[8:4]` (30_encoding.md R113). -/
def fieldD (w : Word) : Reg := w.extractLsb' 4 5

/-- `r = w[9]:w[3:0]` (30_encoding.md R113). -/
def fieldR (w : Word) : Reg := w.extractLsb' 9 1 ++ w.extractLsb' 0 4

/-- `d = 16 + w[7:4]` (10_state.md R22). -/
def fieldD4 (w : Word) : Reg := 1#1 ++ w.extractLsb' 4 4

/-- `r = 16 + w[3:0]` (10_state.md R22). -/
def fieldR4 (w : Word) : Reg := 1#1 ++ w.extractLsb' 0 4

/-- `d = 16 + w[6:4]` (10_state.md R22). -/
def fieldD3 (w : Word) : Reg := 0b10#2 ++ w.extractLsb' 4 3

/-- `r = 16 + w[2:0]` (10_state.md R22). -/
def fieldR3 (w : Word) : Reg := 0b10#2 ++ w.extractLsb' 0 3

/-- `d = 2 * w[7:4]` (10_state.md R22). -/
def fieldPairD (w : Word) : Reg := w.extractLsb' 4 4 ++ 0#1

/-- `r = 2 * w[3:0]` (10_state.md R22). -/
def fieldPairR (w : Word) : Reg := w.extractLsb' 0 4 ++ 0#1

/-- `d = 24 + 2 * w[5:4]` (30_encoding.md R117). -/
def fieldWordPair (w : Word) : Reg := 0b11#2 ++ w.extractLsb' 4 2 ++ 0#1

/-- `K = w[11:8]:w[3:0]` (30_encoding.md R114). -/
def fieldK8 (w : Word) : Byte := w.extractLsb' 8 4 ++ w.extractLsb' 0 4

/-- `K = w[7:6]:w[3:0]` of ADIW and SBIW (30_encoding.md R117). -/
def fieldK6 (w : Word) : BitVec 6 := w.extractLsb' 6 2 ++ w.extractLsb' 0 4

/-- `q = w[13]:w[11:10]:w[2:0]` (30_encoding.md R118). -/
def fieldQ (w : Word) : BitVec 6 := w.extractLsb' 13 1 ++ w.extractLsb' 10 2 ++ w.extractLsb' 0 3

/-- `A = w[10:9]:w[3:0]` of IN and OUT (30_encoding.md R115). -/
def fieldA6 (w : Word) : BitVec 6 := w.extractLsb' 9 2 ++ w.extractLsb' 0 4

/-- `A = w[7:3]` of the I/O bit instructions (30_encoding.md R115). -/
def fieldA5 (w : Word) : BitVec 5 := w.extractLsb' 3 5

/-- `b = w[2:0]`, a bit number (30_encoding.md R116). -/
def fieldB (w : Word) : BitVec 3 := w.extractLsb' 0 3

/-- `s = w[6:4]`, the SREG bit of BSET and BCLR (30_encoding.md R116, R125). -/
def fieldS (w : Word) : BitVec 3 := w.extractLsb' 4 3

/-- `k = w[7:4]`, the DES round (30_encoding.md R120). -/
def fieldRound (w : Word) : BitVec 4 := w.extractLsb' 4 4

/-- `w[11:0]`, the offset of RJMP and RCALL (30_encoding.md R119). -/
def fieldK12 (w : Word) : BitVec 12 := w.extractLsb' 0 12

/-- `w[9:3]`, the offset of a conditional branch (30_encoding.md R119). -/
def fieldK7 (w : Word) : BitVec 7 := w.extractLsb' 3 7

/-- `k = w[8:4]:w[0]:w2[15:0]` of JMP and CALL (30_encoding.md R121). -/
def fieldK22 (w w2 : Word) : BitVec 22 := w.extractLsb' 4 5 ++ w.extractLsb' 0 1 ++ w2

/-- The address `(NOT w[8]):w[8]:w[10]:w[9]:w[3:0]` of the one-word LDS and STS (30_encoding.md R123). -/
def fieldTinyAddr (w : Word) : Byte :=
  ~~~(w.extractLsb' 8 1) ++ w.extractLsb' 8 1 ++ w.extractLsb' 10 1 ++ w.extractLsb' 9 1 ++ w.extractLsb' 0 4

/-- A row of table R130: a first word `w` lies in it when `w &&& mask = value`; `build` gives the instruction from the
first and the second word. -/
structure Row where
  mask  : Word
  value : Word
  build : Word → Word → Instr

/-- Rows `00`: NOP, MOVW, the multiplies and the two-register group (30_encoding.md table R130). -/
def rowsTwoRegister : List Row := [
  ⟨0xFFFF, 0x0000, fun _ _ => .nop⟩,
  ⟨0xFF00, 0x0000, fun w _ => .unlisted0000 w⟩,
  ⟨0xFF00, 0x0100, fun w _ => .movw (fieldPairD w) (fieldPairR w)⟩,
  ⟨0xFF00, 0x0200, fun w _ => .muls (fieldD4 w) (fieldR4 w)⟩,
  ⟨0xFF88, 0x0300, fun w _ => .mulsu (fieldD3 w) (fieldR3 w)⟩,
  ⟨0xFF88, 0x0308, fun w _ => .fmul (fieldD3 w) (fieldR3 w)⟩,
  ⟨0xFF88, 0x0380, fun w _ => .fmuls (fieldD3 w) (fieldR3 w)⟩,
  ⟨0xFF88, 0x0388, fun w _ => .fmulsu (fieldD3 w) (fieldR3 w)⟩,
  ⟨0xFC00, 0x0400, fun w _ => .cpc (fieldD w) (fieldR w)⟩,
  ⟨0xFC00, 0x0800, fun w _ => .sbc (fieldD w) (fieldR w)⟩,
  ⟨0xFC00, 0x0C00, fun w _ => .add (fieldD w) (fieldR w)⟩,
  ⟨0xFC00, 0x1000, fun w _ => .cpse (fieldD w) (fieldR w)⟩,
  ⟨0xFC00, 0x1400, fun w _ => .cp (fieldD w) (fieldR w)⟩,
  ⟨0xFC00, 0x1800, fun w _ => .sub (fieldD w) (fieldR w)⟩,
  ⟨0xFC00, 0x1C00, fun w _ => .adc (fieldD w) (fieldR w)⟩,
  ⟨0xFC00, 0x2000, fun w _ => .and (fieldD w) (fieldR w)⟩,
  ⟨0xFC00, 0x2400, fun w _ => .eor (fieldD w) (fieldR w)⟩,
  ⟨0xFC00, 0x2800, fun w _ => .or (fieldD w) (fieldR w)⟩,
  ⟨0xFC00, 0x2C00, fun w _ => .mov (fieldD w) (fieldR w)⟩]

/-- Rows `0011` and `01`: the register-immediate group (30_encoding.md table R130). -/
def rowsImmediate : List Row := [
  ⟨0xF000, 0x3000, fun w _ => .cpi (fieldD4 w) (fieldK8 w)⟩,
  ⟨0xF000, 0x4000, fun w _ => .sbci (fieldD4 w) (fieldK8 w)⟩,
  ⟨0xF000, 0x5000, fun w _ => .subi (fieldD4 w) (fieldK8 w)⟩,
  ⟨0xF000, 0x6000, fun w _ => .ori (fieldD4 w) (fieldK8 w)⟩,
  ⟨0xF000, 0x7000, fun w _ => .andi (fieldD4 w) (fieldK8 w)⟩]

/-- Rows `10x0`: LDD and STD (30_encoding.md table R130). -/
def rowsDisplacement : List Row := [
  ⟨0xD208, 0x8000, fun w _ => .lddZ (fieldD w) (fieldQ w)⟩,
  ⟨0xD208, 0x8008, fun w _ => .lddY (fieldD w) (fieldQ w)⟩,
  ⟨0xD208, 0x8200, fun w _ => .stdZ (fieldD w) (fieldQ w)⟩,
  ⟨0xD208, 0x8208, fun w _ => .stdY (fieldD w) (fieldQ w)⟩]

/-- Rows `1001 000`: loads, LPM, ELPM, POP (30_encoding.md table R130). -/
def rowsLoad : List Row := [
  ⟨0xFE0F, 0x9000, fun w w2 => .lds (fieldD w) w2⟩,
  ⟨0xFE0F, 0x9001, fun w _ => .ldZinc (fieldD w)⟩,
  ⟨0xFE0F, 0x9002, fun w _ => .ldZdec (fieldD w)⟩,
  ⟨0xFE0F, 0x9003, fun w _ => .unlistedLd0011 w⟩,
  ⟨0xFE0F, 0x9004, fun w _ => .lpmRdZ (fieldD w)⟩,
  ⟨0xFE0F, 0x9005, fun w _ => .lpmRdZinc (fieldD w)⟩,
  ⟨0xFE0F, 0x9006, fun w _ => .elpmRdZ (fieldD w)⟩,
  ⟨0xFE0F, 0x9007, fun w _ => .elpmRdZinc (fieldD w)⟩,
  ⟨0xFE0F, 0x9008, fun w _ => .unlistedLd1000 w⟩,
  ⟨0xFE0F, 0x9009, fun w _ => .ldYinc (fieldD w)⟩,
  ⟨0xFE0F, 0x900A, fun w _ => .ldYdec (fieldD w)⟩,
  ⟨0xFE0F, 0x900B, fun w _ => .unlistedLd1011 w⟩,
  ⟨0xFE0F, 0x900C, fun w _ => .ldX (fieldD w)⟩,
  ⟨0xFE0F, 0x900D, fun w _ => .ldXinc (fieldD w)⟩,
  ⟨0xFE0F, 0x900E, fun w _ => .ldXdec (fieldD w)⟩,
  ⟨0xFE0F, 0x900F, fun w _ => .pop (fieldD w)⟩]

/-- Rows `1001 001`: stores, the read-modify-writes, PUSH (30_encoding.md table R130). -/
def rowsStore : List Row := [
  ⟨0xFE0F, 0x9200, fun w w2 => .sts (fieldD w) w2⟩,
  ⟨0xFE0F, 0x9201, fun w _ => .stZinc (fieldD w)⟩,
  ⟨0xFE0F, 0x9202, fun w _ => .stZdec (fieldD w)⟩,
  ⟨0xFE0F, 0x9203, fun w _ => .unlistedSt0011 w⟩,
  ⟨0xFE0F, 0x9204, fun w _ => .xch (fieldD w)⟩,
  ⟨0xFE0F, 0x9205, fun w _ => .las (fieldD w)⟩,
  ⟨0xFE0F, 0x9206, fun w _ => .lac (fieldD w)⟩,
  ⟨0xFE0F, 0x9207, fun w _ => .lat (fieldD w)⟩,
  ⟨0xFE0F, 0x9208, fun w _ => .unlistedSt1000 w⟩,
  ⟨0xFE0F, 0x9209, fun w _ => .stYinc (fieldD w)⟩,
  ⟨0xFE0F, 0x920A, fun w _ => .stYdec (fieldD w)⟩,
  ⟨0xFE0F, 0x920B, fun w _ => .unlistedSt1011 w⟩,
  ⟨0xFE0F, 0x920C, fun w _ => .stX (fieldD w)⟩,
  ⟨0xFE0F, 0x920D, fun w _ => .stXinc (fieldD w)⟩,
  ⟨0xFE0F, 0x920E, fun w _ => .stXdec (fieldD w)⟩,
  ⟨0xFE0F, 0x920F, fun w _ => .push (fieldD w)⟩]

/-- Rows `1001 010`: the one-operand and zero-operand groups, indirect jumps and calls, DES, JMP, CALL (30_encoding.md table R130). -/
def rowsOneOperand : List Row := [
  ⟨0xFE0F, 0x9400, fun w _ => .com (fieldD w)⟩,
  ⟨0xFE0F, 0x9401, fun w _ => .neg (fieldD w)⟩,
  ⟨0xFE0F, 0x9402, fun w _ => .swap (fieldD w)⟩,
  ⟨0xFE0F, 0x9403, fun w _ => .inc (fieldD w)⟩,
  ⟨0xFE0F, 0x9404, fun w _ => .reserved9404 w⟩,
  ⟨0xFE0F, 0x9405, fun w _ => .asr (fieldD w)⟩,
  ⟨0xFE0F, 0x9406, fun w _ => .lsr (fieldD w)⟩,
  ⟨0xFE0F, 0x9407, fun w _ => .ror (fieldD w)⟩,
  ⟨0xFF8F, 0x9408, fun w _ => .bset (fieldS w)⟩,
  ⟨0xFF8F, 0x9488, fun w _ => .bclr (fieldS w)⟩,
  ⟨0xFFFF, 0x9508, fun _ _ => .ret⟩,
  ⟨0xFFFF, 0x9518, fun _ _ => .reti⟩,
  ⟨0xFFEF, 0x9528, fun w _ => .reserved9528 w⟩,
  ⟨0xFFCF, 0x9548, fun w _ => .reserved9548 w⟩,
  ⟨0xFFFF, 0x9588, fun _ _ => .sleep⟩,
  ⟨0xFFFF, 0x9598, fun _ _ => .break_⟩,
  ⟨0xFFFF, 0x95A8, fun _ _ => .wdr⟩,
  ⟨0xFFFF, 0x95B8, fun w _ => .reserved95b8 w⟩,
  ⟨0xFFFF, 0x95C8, fun _ _ => .lpm⟩,
  ⟨0xFFFF, 0x95D8, fun _ _ => .elpm⟩,
  ⟨0xFFFF, 0x95E8, fun _ _ => .spm⟩,
  ⟨0xFFFF, 0x95F8, fun _ _ => .spmZinc⟩,
  ⟨0xFFFF, 0x9409, fun _ _ => .ijmp⟩,
  ⟨0xFFFF, 0x9419, fun _ _ => .eijmp⟩,
  ⟨0xFFFF, 0x9509, fun _ _ => .icall⟩,
  ⟨0xFFFF, 0x9519, fun _ _ => .eicall⟩,
  ⟨0xFE0F, 0x9409, fun w _ => .unlisted94x9 w⟩,
  ⟨0xFE0F, 0x940A, fun w _ => .dec (fieldD w)⟩,
  ⟨0xFF0F, 0x940B, fun w _ => .des (fieldRound w)⟩,
  ⟨0xFF0F, 0x950B, fun w _ => .unlisted95xB w⟩,
  ⟨0xFE0E, 0x940C, fun w w2 => .jmp (fieldK22 w w2)⟩,
  ⟨0xFE0E, 0x940E, fun w w2 => .call (fieldK22 w w2)⟩]

/-- Rows `1001 011` to `1011`: ADIW, SBIW, the I/O group, MUL (30_encoding.md table R130). -/
def rowsWordAndIo : List Row := [
  ⟨0xFF00, 0x9600, fun w _ => .adiw (fieldWordPair w) (fieldK6 w)⟩,
  ⟨0xFF00, 0x9700, fun w _ => .sbiw (fieldWordPair w) (fieldK6 w)⟩,
  ⟨0xFF00, 0x9800, fun w _ => .cbi (fieldA5 w) (fieldB w)⟩,
  ⟨0xFF00, 0x9900, fun w _ => .sbic (fieldA5 w) (fieldB w)⟩,
  ⟨0xFF00, 0x9A00, fun w _ => .sbi (fieldA5 w) (fieldB w)⟩,
  ⟨0xFF00, 0x9B00, fun w _ => .sbis (fieldA5 w) (fieldB w)⟩,
  ⟨0xFC00, 0x9C00, fun w _ => .mul (fieldD w) (fieldR w)⟩,
  ⟨0xF800, 0xB000, fun w _ => .in_ (fieldD w) (fieldA6 w)⟩,
  ⟨0xF800, 0xB800, fun w _ => .out (fieldD w) (fieldA6 w)⟩]

/-- Rows `11`: relative jumps and calls, LDI, branches, register bits (30_encoding.md table R130). -/
def rowsBranch : List Row := [
  ⟨0xF000, 0xC000, fun w _ => .rjmp (fieldK12 w)⟩,
  ⟨0xF000, 0xD000, fun w _ => .rcall (fieldK12 w)⟩,
  ⟨0xF000, 0xE000, fun w _ => .ldi (fieldD4 w) (fieldK8 w)⟩,
  ⟨0xFC00, 0xF000, fun w _ => .brbs (fieldB w) (fieldK7 w)⟩,
  ⟨0xFC00, 0xF400, fun w _ => .brbc (fieldB w) (fieldK7 w)⟩,
  ⟨0xFE08, 0xF800, fun w _ => .bld (fieldD w) (fieldB w)⟩,
  ⟨0xFE08, 0xFA00, fun w _ => .bst (fieldD w) (fieldB w)⟩,
  ⟨0xFE08, 0xFC00, fun w _ => .sbrc (fieldD w) (fieldB w)⟩,
  ⟨0xFE08, 0xFE00, fun w _ => .sbrs (fieldD w) (fieldB w)⟩,
  ⟨0xF808, 0xF808, fun w _ => .reservedF808 w⟩]

/-- The one-word LDS and STS of AVRtiny (30_encoding.md R123, table R130). -/
def rowsTiny : List Row := [
  ⟨0xF800, 0xA000, fun w _ => .ldsTiny (fieldD4 w) (fieldTinyAddr w)⟩,
  ⟨0xF800, 0xA800, fun w _ => .stsTiny (fieldD4 w) (fieldTinyAddr w)⟩]

/-- Table R130 without its two AVRtiny rows, in the table's order: a more specific row stands before the unlisted row it
overlaps (NOP; IJMP, EIJMP, ICALL, EICALL). -/
def opcodeTable : List Row :=
  rowsTwoRegister ++ rowsImmediate ++ rowsDisplacement ++ rowsLoad ++
  rowsStore ++ rowsOneOperand ++ rowsWordAndIo ++ rowsBranch

/-- The rows a variant decodes by: on AVRtiny the one-word LDS and STS replace LDD and STD for every word with bits
15:12 = 1010, so they come first (30_encoding.md R123, R130). -/
def rowsOf (tiny : Bool) : List Row := if tiny then rowsTiny ++ opcodeTable else opcodeTable

/-- The instruction of a first word and the word after it (ignored by a one-word instruction, 30_encoding.md R111). -/
def decodeWords (tiny : Bool) (w w2 : Word) : Except DecodeError Instr :=
  match (rowsOf tiny).find? fun row => inRow row.mask row.value w with
  | some row => .ok (row.build w w2)
  | none => .error (.noRow w)

/-- Decode a run of bytes, two to a word, low byte first (20_memory.md R84, R85): the instruction and the bytes after
it. -/
def decodeBytes (tiny : Bool) : List Byte → Except DecodeError (Instr × List Byte)
  | lo :: hi :: rest =>
    if isTwoWord (hi ++ lo) then
      match rest with
      | lo2 :: hi2 :: rest2 => (decodeWords tiny (hi ++ lo) (hi2 ++ lo2)).map fun i => (i, rest2)
      | _ => .error .truncated
    else (decodeWords tiny (hi ++ lo) 0).map fun i => (i, rest)
  | _ => .error .truncated

/-- Format `F_RD_RR`: `oooo oord dddd rrrr`. -/
def encRdRr (op : BitVec 6) (d r : Reg) : Word := op ++ r.extractLsb' 4 1 ++ d ++ r.extractLsb' 0 4

/-- Format `F_RD_K`: `oooo KKKK dddd KKKK`. -/
def encRdK (op : BitVec 4) (d : Reg) (k : Byte) : Word :=
  op ++ k.extractLsb' 4 4 ++ d.extractLsb' 0 4 ++ k.extractLsb' 0 4

/-- Format `F_RD` and the first word of `F_LDS32`: `1001 0ood dddd oooo`. -/
def encRd (op : BitVec 7) (d : Reg) (low : BitVec 4) : Word := op ++ d ++ low

/-- Format `F_MUL3`: `0000 0011 oddd orrr`. -/
def encMul3 (hi lo : BitVec 1) (d r : Reg) : Word :=
  0b00000011#8 ++ hi ++ d.extractLsb' 0 3 ++ lo ++ r.extractLsb' 0 3

/-- Format `F_LDD`: `10q0 qqsd dddd yqqq`. -/
def encLdd (s y : BitVec 1) (d : Reg) (q : BitVec 6) : Word :=
  0b10#2 ++ q.extractLsb' 5 1 ++ 0#1 ++ q.extractLsb' 3 2 ++ s ++ d ++ y ++ q.extractLsb' 0 3

/-- Format `F_LDS16`: `1010 skkk dddd kkkk`, the address bits in the order of 30_encoding.md R123. -/
def encTiny (op : BitVec 5) (d : Reg) (a : Byte) : Word :=
  op ++ a.extractLsb' 5 1 ++ a.extractLsb' 4 1 ++ a.extractLsb' 6 1 ++ d.extractLsb' 0 4 ++ a.extractLsb' 0 4

/-- The first word of an instruction (30_encoding.md table R130). -/
def Instr.firstWord : Instr → Word
  | .nop => 0x0000#16
  | .unlisted0000 w => w
  | .movw d r => 0b00000001#8 ++ d.extractLsb' 1 4 ++ r.extractLsb' 1 4
  | .muls d r => 0b00000010#8 ++ d.extractLsb' 0 4 ++ r.extractLsb' 0 4
  | .mulsu d r => encMul3 0b0#1 0b0#1 d r
  | .fmul d r => encMul3 0b0#1 0b1#1 d r
  | .fmuls d r => encMul3 0b1#1 0b0#1 d r
  | .fmulsu d r => encMul3 0b1#1 0b1#1 d r
  | .cpc d r => encRdRr 0b000001#6 d r
  | .sbc d r => encRdRr 0b000010#6 d r
  | .add d r => encRdRr 0b000011#6 d r
  | .cpse d r => encRdRr 0b000100#6 d r
  | .cp d r => encRdRr 0b000101#6 d r
  | .sub d r => encRdRr 0b000110#6 d r
  | .adc d r => encRdRr 0b000111#6 d r
  | .and d r => encRdRr 0b001000#6 d r
  | .eor d r => encRdRr 0b001001#6 d r
  | .or d r => encRdRr 0b001010#6 d r
  | .mov d r => encRdRr 0b001011#6 d r
  | .cpi d k => encRdK 0b0011#4 d k
  | .sbci d k => encRdK 0b0100#4 d k
  | .subi d k => encRdK 0b0101#4 d k
  | .ori d k => encRdK 0b0110#4 d k
  | .andi d k => encRdK 0b0111#4 d k
  | .lddZ d q => encLdd 0b0#1 0b0#1 d q
  | .lddY d q => encLdd 0b0#1 0b1#1 d q
  | .stdZ d q => encLdd 0b1#1 0b0#1 d q
  | .stdY d q => encLdd 0b1#1 0b1#1 d q
  | .lds d _ => encRd 0b1001000#7 d 0b0000#4
  | .ldZinc d => encRd 0b1001000#7 d 0b0001#4
  | .ldZdec d => encRd 0b1001000#7 d 0b0010#4
  | .unlistedLd0011 w => w
  | .lpmRdZ d => encRd 0b1001000#7 d 0b0100#4
  | .lpmRdZinc d => encRd 0b1001000#7 d 0b0101#4
  | .elpmRdZ d => encRd 0b1001000#7 d 0b0110#4
  | .elpmRdZinc d => encRd 0b1001000#7 d 0b0111#4
  | .unlistedLd1000 w => w
  | .ldYinc d => encRd 0b1001000#7 d 0b1001#4
  | .ldYdec d => encRd 0b1001000#7 d 0b1010#4
  | .unlistedLd1011 w => w
  | .ldX d => encRd 0b1001000#7 d 0b1100#4
  | .ldXinc d => encRd 0b1001000#7 d 0b1101#4
  | .ldXdec d => encRd 0b1001000#7 d 0b1110#4
  | .pop d => encRd 0b1001000#7 d 0b1111#4
  | .sts d _ => encRd 0b1001001#7 d 0b0000#4
  | .stZinc d => encRd 0b1001001#7 d 0b0001#4
  | .stZdec d => encRd 0b1001001#7 d 0b0010#4
  | .unlistedSt0011 w => w
  | .xch d => encRd 0b1001001#7 d 0b0100#4
  | .las d => encRd 0b1001001#7 d 0b0101#4
  | .lac d => encRd 0b1001001#7 d 0b0110#4
  | .lat d => encRd 0b1001001#7 d 0b0111#4
  | .unlistedSt1000 w => w
  | .stYinc d => encRd 0b1001001#7 d 0b1001#4
  | .stYdec d => encRd 0b1001001#7 d 0b1010#4
  | .unlistedSt1011 w => w
  | .stX d => encRd 0b1001001#7 d 0b1100#4
  | .stXinc d => encRd 0b1001001#7 d 0b1101#4
  | .stXdec d => encRd 0b1001001#7 d 0b1110#4
  | .push d => encRd 0b1001001#7 d 0b1111#4
  | .com d => encRd 0b1001010#7 d 0b0000#4
  | .neg d => encRd 0b1001010#7 d 0b0001#4
  | .swap d => encRd 0b1001010#7 d 0b0010#4
  | .inc d => encRd 0b1001010#7 d 0b0011#4
  | .reserved9404 w => w
  | .asr d => encRd 0b1001010#7 d 0b0101#4
  | .lsr d => encRd 0b1001010#7 d 0b0110#4
  | .ror d => encRd 0b1001010#7 d 0b0111#4
  | .bset b => 0b100101000#9 ++ b ++ 0b1000#4
  | .bclr b => 0b100101001#9 ++ b ++ 0b1000#4
  | .ret => 0x9508#16
  | .reti => 0x9518#16
  | .reserved9528 w => w
  | .reserved9548 w => w
  | .sleep => 0x9588#16
  | .break_ => 0x9598#16
  | .wdr => 0x95A8#16
  | .reserved95b8 w => w
  | .lpm => 0x95C8#16
  | .elpm => 0x95D8#16
  | .spm => 0x95E8#16
  | .spmZinc => 0x95F8#16
  | .ijmp => 0x9409#16
  | .eijmp => 0x9419#16
  | .icall => 0x9509#16
  | .eicall => 0x9519#16
  | .unlisted94x9 w => w
  | .dec d => encRd 0b1001010#7 d 0b1010#4
  | .des k => 0b10010100#8 ++ k ++ 0b1011#4
  | .unlisted95xB w => w
  | .jmp k => 0b1001010#7 ++ k.extractLsb' 17 5 ++ 0b110#3 ++ k.extractLsb' 16 1
  | .call k => 0b1001010#7 ++ k.extractLsb' 17 5 ++ 0b111#3 ++ k.extractLsb' 16 1
  | .adiw d k => 0b10010110#8 ++ k.extractLsb' 4 2 ++ d.extractLsb' 1 2 ++ k.extractLsb' 0 4
  | .sbiw d k => 0b10010111#8 ++ k.extractLsb' 4 2 ++ d.extractLsb' 1 2 ++ k.extractLsb' 0 4
  | .cbi a b => 0b10011000#8 ++ a ++ b
  | .sbic a b => 0b10011001#8 ++ a ++ b
  | .sbi a b => 0b10011010#8 ++ a ++ b
  | .sbis a b => 0b10011011#8 ++ a ++ b
  | .mul d r => encRdRr 0b100111#6 d r
  | .in_ d a => 0b10110#5 ++ a.extractLsb' 4 2 ++ d ++ a.extractLsb' 0 4
  | .out d a => 0b10111#5 ++ a.extractLsb' 4 2 ++ d ++ a.extractLsb' 0 4
  | .rjmp k => 0b1100#4 ++ k
  | .rcall k => 0b1101#4 ++ k
  | .ldi d k => encRdK 0b1110#4 d k
  | .brbs b k => 0b111100#6 ++ k ++ b
  | .brbc b k => 0b111101#6 ++ k ++ b
  | .bld d b => 0b1111100#7 ++ d ++ 0b0#1 ++ b
  | .bst d b => 0b1111101#7 ++ d ++ 0b0#1 ++ b
  | .sbrc d b => 0b1111110#7 ++ d ++ 0b0#1 ++ b
  | .sbrs d b => 0b1111111#7 ++ d ++ 0b0#1 ++ b
  | .reservedF808 w => w
  | .ldsTiny d a => encTiny 0b10100#5 d a
  | .stsTiny d a => encTiny 0b10101#5 d a

/-- The second word of LDS, STS, JMP and CALL (30_encoding.md R121, R122). -/
def Instr.secondWord : Instr → Option Word
  | .nop => none
  | .unlisted0000 _ => none
  | .movw _ _ => none
  | .muls _ _ => none
  | .mulsu _ _ => none
  | .fmul _ _ => none
  | .fmuls _ _ => none
  | .fmulsu _ _ => none
  | .cpc _ _ => none
  | .sbc _ _ => none
  | .add _ _ => none
  | .cpse _ _ => none
  | .cp _ _ => none
  | .sub _ _ => none
  | .adc _ _ => none
  | .and _ _ => none
  | .eor _ _ => none
  | .or _ _ => none
  | .mov _ _ => none
  | .cpi _ _ => none
  | .sbci _ _ => none
  | .subi _ _ => none
  | .ori _ _ => none
  | .andi _ _ => none
  | .lddZ _ _ => none
  | .lddY _ _ => none
  | .stdZ _ _ => none
  | .stdY _ _ => none
  | .lds _ k => some k
  | .ldZinc _ => none
  | .ldZdec _ => none
  | .unlistedLd0011 _ => none
  | .lpmRdZ _ => none
  | .lpmRdZinc _ => none
  | .elpmRdZ _ => none
  | .elpmRdZinc _ => none
  | .unlistedLd1000 _ => none
  | .ldYinc _ => none
  | .ldYdec _ => none
  | .unlistedLd1011 _ => none
  | .ldX _ => none
  | .ldXinc _ => none
  | .ldXdec _ => none
  | .pop _ => none
  | .sts _ k => some k
  | .stZinc _ => none
  | .stZdec _ => none
  | .unlistedSt0011 _ => none
  | .xch _ => none
  | .las _ => none
  | .lac _ => none
  | .lat _ => none
  | .unlistedSt1000 _ => none
  | .stYinc _ => none
  | .stYdec _ => none
  | .unlistedSt1011 _ => none
  | .stX _ => none
  | .stXinc _ => none
  | .stXdec _ => none
  | .push _ => none
  | .com _ => none
  | .neg _ => none
  | .swap _ => none
  | .inc _ => none
  | .reserved9404 _ => none
  | .asr _ => none
  | .lsr _ => none
  | .ror _ => none
  | .bset _ => none
  | .bclr _ => none
  | .ret => none
  | .reti => none
  | .reserved9528 _ => none
  | .reserved9548 _ => none
  | .sleep => none
  | .break_ => none
  | .wdr => none
  | .reserved95b8 _ => none
  | .lpm => none
  | .elpm => none
  | .spm => none
  | .spmZinc => none
  | .ijmp => none
  | .eijmp => none
  | .icall => none
  | .eicall => none
  | .unlisted94x9 _ => none
  | .dec _ => none
  | .des _ => none
  | .unlisted95xB _ => none
  | .jmp k => some (k.extractLsb' 0 16)
  | .call k => some (k.extractLsb' 0 16)
  | .adiw _ _ => none
  | .sbiw _ _ => none
  | .cbi _ _ => none
  | .sbic _ _ => none
  | .sbi _ _ => none
  | .sbis _ _ => none
  | .mul _ _ => none
  | .in_ _ _ => none
  | .out _ _ => none
  | .rjmp _ => none
  | .rcall _ => none
  | .ldi _ _ => none
  | .brbs _ _ => none
  | .brbc _ _ => none
  | .bld _ _ => none
  | .bst _ _ => none
  | .sbrc _ _ => none
  | .sbrs _ _ => none
  | .reservedF808 _ => none
  | .ldsTiny _ _ => none
  | .stsTiny _ _ => none

/-- The words of an instruction, in the order they lie in program memory (20_memory.md R85 (e)). -/
def encode (i : Instr) : List Word := i.firstWord :: i.secondWord.toList

/-- How many words an instruction takes (30_encoding.md R110). -/
def Instr.words (i : Instr) : Nat := (encode i).length

/-- The one-word LDS and STS, which only AVRtiny decodes (30_encoding.md R123). -/
def Instr.isTinyForm : Instr → Bool
  | .ldsTiny _ _ => true
  | .stsTiny _ _ => true
  | _ => false

/-- The instruction the decoder of the reset profile reads from the bits `w` (of which `nbits` are given, the rest 0):
the words lie in memory order, each low byte first. Log 15. -/
def decodeTableWord (nbits w : Nat) : Option Instr :=
  let v := BitVec.ofNat 32 (w % 2 ^ nbits)
  match decodeBytes Cfg.atReset.isTiny
      [v.extractLsb' 0 8, v.extractLsb' 8 8, v.extractLsb' 16 8, v.extractLsb' 24 8] with
  | .ok (i, _) => some i
  | .error _ => none

end Sys2Proof
end

