-- ==== Sys2Proof/Machine/Presence.lean ====
section
/-! DEFINITION. Which instructions a variant has: the column "present when" of 30_encoding.md table R130, with R141 (b). -/

namespace Sys2Proof

/-- The register exists: AVRtiny has R16 to R31 only (10_state.md R23). -/
def Cfg.hasReg (c : Cfg) (d : Reg) : Bool := c.lowRegs || 16 ≤ d.toNat

/-- LD and ST through X, and through Y and Z with post-increment or pre-decrement (42_transfer.md R273, R274). -/
def Cfg.hasUpdateModes (c : Cfg) : Bool := c.ldstModes != .zOnly

/-- LDD and STD through Z with displacement `q` (42_transfer.md R271, R272). -/
def Cfg.hasDispZ (c : Cfg) (q : BitVec 6) : Bool := c.ldstModes == .full || q == 0

/-- LDD and STD through Y with displacement `q` (42_transfer.md R271, R272). -/
def Cfg.hasDispY (c : Cfg) (q : BitVec 6) : Bool :=
  c.ldstModes == .full || (c.ldstModes == .noDisplacement && q == 0)

/-- The variant has the instruction (30_encoding.md table R130, "present when"; R140, R141). -/
def Instr.presentOn (c : Cfg) : Instr → Bool
  | .nop => true
  | .unlisted0000 _ => false
  | .movw _ _ => c.hasMovw
  | .muls _ _ => c.hasMul
  | .mulsu _ _ => c.hasMul
  | .fmul _ _ => c.hasMul
  | .fmuls _ _ => c.hasMul
  | .fmulsu _ _ => c.hasMul
  | .cpc d r => c.hasReg d && c.hasReg r
  | .sbc d r => c.hasReg d && c.hasReg r
  | .add d r => c.hasReg d && c.hasReg r
  | .cpse d r => c.hasReg d && c.hasReg r
  | .cp d r => c.hasReg d && c.hasReg r
  | .sub d r => c.hasReg d && c.hasReg r
  | .adc d r => c.hasReg d && c.hasReg r
  | .and d r => c.hasReg d && c.hasReg r
  | .eor d r => c.hasReg d && c.hasReg r
  | .or d r => c.hasReg d && c.hasReg r
  | .mov d r => c.hasReg d && c.hasReg r
  | .cpi _ _ => true
  | .sbci _ _ => true
  | .subi _ _ => true
  | .ori _ _ => true
  | .andi _ _ => true
  | .lddZ d q => c.hasReg d && c.hasDispZ q
  | .lddY d q => c.hasReg d && c.hasDispY q
  | .stdZ d q => c.hasReg d && c.hasDispZ q
  | .stdY d q => c.hasReg d && c.hasDispY q
  | .lds d _ => c.hasReg d && c.ldsStsForm == .twoWord
  | .ldZinc d => c.hasReg d && c.hasUpdateModes
  | .ldZdec d => c.hasReg d && c.hasUpdateModes
  | .unlistedLd0011 _ => false
  | .lpmRdZ d => c.hasReg d && c.lpmForm == .full
  | .lpmRdZinc d => c.hasReg d && c.lpmForm == .full
  | .elpmRdZ d => c.hasReg d && c.elpmForm == .full
  | .elpmRdZinc d => c.hasReg d && c.elpmForm == .full
  | .unlistedLd1000 _ => false
  | .ldYinc d => c.hasReg d && c.hasUpdateModes
  | .ldYdec d => c.hasReg d && c.hasUpdateModes
  | .unlistedLd1011 _ => false
  | .ldX d => c.hasReg d && c.hasUpdateModes
  | .ldXinc d => c.hasReg d && c.hasUpdateModes
  | .ldXdec d => c.hasReg d && c.hasUpdateModes
  | .pop d => c.hasReg d && c.stackKind == .dataSpace
  | .sts d _ => c.hasReg d && c.ldsStsForm == .twoWord
  | .stZinc d => c.hasReg d && c.hasUpdateModes
  | .stZdec d => c.hasReg d && c.hasUpdateModes
  | .unlistedSt0011 _ => false
  | .xch d => c.hasReg d && c.hasRmw
  | .las d => c.hasReg d && c.hasRmw
  | .lac d => c.hasReg d && c.hasRmw
  | .lat d => c.hasReg d && c.hasRmw
  | .unlistedSt1000 _ => false
  | .stYinc d => c.hasReg d && c.hasUpdateModes
  | .stYdec d => c.hasReg d && c.hasUpdateModes
  | .unlistedSt1011 _ => false
  | .stX d => c.hasReg d && c.hasUpdateModes
  | .stXinc d => c.hasReg d && c.hasUpdateModes
  | .stXdec d => c.hasReg d && c.hasUpdateModes
  | .push d => c.hasReg d && c.stackKind == .dataSpace
  | .com d => c.hasReg d
  | .neg d => c.hasReg d
  | .swap d => c.hasReg d
  | .inc d => c.hasReg d
  | .reserved9404 _ => false
  | .asr d => c.hasReg d
  | .lsr d => c.hasReg d
  | .ror d => c.hasReg d
  | .bset _ => true
  | .bclr _ => true
  | .ret => true
  | .reti => true
  | .reserved9528 _ => false
  | .reserved9548 _ => false
  | .sleep => true
  | .break_ => c.hasBreak
  | .wdr => true
  | .reserved95b8 _ => false
  | .lpm => c.lpmForm != .absent
  | .elpm => c.elpmForm != .absent
  | .spm => c.spmForm != .absent
  | .spmZinc => c.spmForm == .plainAndZinc
  | .ijmp => c.hasIjmpIcall
  | .eijmp => c.hasEind
  | .icall => c.hasIjmpIcall
  | .eicall => c.hasEind
  | .unlisted94x9 _ => false
  | .dec d => c.hasReg d
  | .des _ => c.hasDes
  | .unlisted95xB _ => false
  | .jmp _ => c.hasJmpCall
  | .call _ => c.hasJmpCall
  | .adiw _ _ => c.hasWordOps
  | .sbiw _ _ => c.hasWordOps
  | .cbi _ _ => true
  | .sbic _ _ => true
  | .sbi _ _ => true
  | .sbis _ _ => true
  | .mul d r => c.hasReg d && c.hasReg r && c.hasMul
  | .in_ d _ => c.hasReg d
  | .out d _ => c.hasReg d
  | .rjmp _ => true
  | .rcall _ => true
  | .ldi _ _ => true
  | .brbs _ _ => true
  | .brbc _ _ => true
  | .bld d _ => c.hasReg d
  | .bst d _ => c.hasReg d
  | .sbrc d _ => c.hasReg d
  | .sbrs d _ => c.hasReg d
  | .reservedF808 _ => false
  | .ldsTiny _ _ => c.isTiny && c.ldsStsForm == .oneWordTiny
  | .stsTiny _ _ => c.isTiny && c.ldsStsForm == .oneWordTiny

end Sys2Proof
end

