-- ==== Sys2Proof/Machine/Operands.lean ====
section
/-! DEFINITION. The operand forms the meanings share: what an instruction does on a variant that lacks it, the addressing
modes of loads and stores, the targets of jumps, branches and skips. -/

namespace Sys2Proof.Machine

/-- The body of an instruction where the variant has it, `ReservedInstruction(w)` where it has not (30_encoding.md R141,
R150). -/
def whenPresent (i : Instr) (s : State) (body : Res State) : Host.Outcome State Fault Refusal :=
  if i.presentOn s.cfg then body.toOutcome else .fault (.reservedInstruction i.firstWord)

/-- An instruction the spec declines to model, `raise Unmodelled(name)` where the variant has it (60_exceptions.md table
R381). -/
def whenPresentRefuse (i : Instr) (s : State) (r : Refusal) : Host.Outcome State Fault Refusal :=
  if i.presentOn s.cfg then .refused r else .fault (.reservedInstruction i.firstWord)

/-- The end of a one-word instruction whose result is a register and the flags. -/
def State.finish (s : State) (d : Reg) (v sr : Byte) : State := ((s.setReg d v).setSreg sr).advance 1

/-- The end of a one-word instruction whose result is the flags alone. -/
def State.finishFlags (s : State) (sr : Byte) : State := (s.setSreg sr).advance 1

/-- The end of a one-word instruction whose result is a register pair and the flags. -/
def State.finishPair (s : State) (p : Reg) (v : BitVec 16) (sr : Byte) : State :=
  ((s.setPair p v).setSreg sr).advance 1

/-- The register is one half of the pointer (42_transfer.md R275). -/
def Ptr.holds (p : Ptr) (d : Reg) : Bool := d == p.low || d == p.low + 1

/-- `UndefinedOperands(w)` when the data register is half of the pointer the instruction updates (42_transfer.md R275).
Log 12. -/
def unlessPointerHalf (i : Instr) (p : Ptr) (d : Reg) (body : Res State) : Res State :=
  if p.holds d then .error (.undefinedOperands i.firstWord) else body

/-- A load from an effective address: `R[d] <- MemRead(DataAddr(EA), 1)` (42_transfer.md R270). -/
def State.loadFrom (s : State) (d : Reg) (ea : DataAddr) : Res State :=
  (s.memRead (dataAddr s.cfg ea)).map fun (v, t) => t.setReg d v

/-- A store to an effective address: `MemWrite(DataAddr(EA), 1, v)` (42_transfer.md R270). -/
def State.storeTo (s : State) (ea : DataAddr) (v : Byte) : Res State := s.memWrite (dataAddr s.cfg ea) v

/-- Load, post-increment: access, pointer, register (42_transfer.md R273). -/
def State.loadInc (s : State) (d : Reg) (p : Ptr) : Res State :=
  (s.memRead (dataAddr s.cfg (s.ptrGet p))).map fun (v, t) => (t.ptrSet p (s.ptrPlus p 1)).setReg d v

/-- Load, pre-decrement: access below the pointer, pointer, register (42_transfer.md R273). -/
def State.loadDec (s : State) (d : Reg) (p : Ptr) : Res State :=
  (s.memRead (dataAddr s.cfg (s.ptrPlus p (-1)))).map fun (v, t) => (t.ptrSet p (s.ptrPlus p (-1))).setReg d v

/-- Store, post-increment: access, then pointer (42_transfer.md R274). Log 11. -/
def State.storeInc (s : State) (d : Reg) (p : Ptr) : Res State :=
  (s.storeTo (s.ptrGet p) (s.reg d)).map fun t => t.ptrSet p (s.ptrPlus p 1)

/-- Store, pre-decrement: pointer, then access; the register is read before both (42_transfer.md R274). Log 11. -/
def State.storeDec (s : State) (d : Reg) (p : Ptr) : Res State :=
  (s.ptrSet p (s.ptrPlus p (-1))).storeTo (s.ptrPlus p (-1)) (s.reg d)

/-- Read-modify-write at Z: memory takes `f old R[d]`, the register the old byte (42_transfer.md R300 to R303). Log 11. -/
def State.exchange (s : State) (d : Reg) (f : Byte → Byte → Byte) : Res State := do
  let ea := dataAddr s.cfg (s.ptrGet .z)
  let (old, t) ← s.memRead ea
  let t ← t.memWrite ea (f old (s.reg d))
  pure (t.setReg d old)

/-- The byte address of ELPM: `RAMPZ:Z` (42_transfer.md R283). -/
def State.elpmAddr (s : State) : DataAddr := s.ptrGet .z

/-- The target of a relative jump or branch: `trunc_PC_BITS(pc + 1 + k)` (43_jump.md R320, 45_branch.md R367). -/
def State.relTarget (s : State) (k : ProgAddr) : ProgAddr := truncPc s.cfg (s.pc + 1 + k)

/-- The target of IJMP and ICALL: `trunc_PC_BITS(zext(Z))` (43_jump.md R321). -/
def State.indirectTarget (s : State) : ProgAddr := truncPc s.cfg ((s.pair 30).setWidth 22)

/-- The target of EIJMP and EICALL: `trunc_PC_BITS(EIND:Z)` (43_jump.md R322). -/
def State.extendedTarget (s : State) : ProgAddr := truncPc s.cfg ((s.eindVal ++ s.pair 30).setWidth 22)

/-- A call of `n` words to `target`: the return address is pushed, then the pc assigned (44_call.md R340). -/
def State.callTo (s : State) (n : Nat) (target : ProgAddr) : Res State :=
  (s.pushPc (s.pcPlus n)).map fun t => t.setPc target

/-- The variant lacks the two-word instruction this word begins (45_branch.md R361). -/
def lacksTwoWord (c : Cfg) (w : Word) : Bool :=
  if w &&& 0xFC0F == 0x9000 then c.ldsStsForm != .twoWord else !c.hasJmpCall

/-- Where a taken skip goes: past the next instruction, whatever its length (45_branch.md R361). -/
def State.skipTarget (s : State) : Res ProgAddr :=
  match s.progWord (s.pcPlus 1) with
  | .error f => .error f
  | .ok w =>
    if isTwoWord w && lacksTwoWord s.cfg w then .error (.reservedInstruction w)
    else .ok (s.pcPlus (1 + wordLength w))

/-- A skip (45_branch.md R361): past the next instruction when the condition holds, else to it. -/
def State.skipIf (s : State) (cond : Bool) : Res State :=
  match s.skipTarget with
  | .ok t => .ok (s.setPc (if cond then t else s.pcPlus 1))
  | .error f => if cond then .error f else .ok (s.advance 1)

/-- A conditional branch (45_branch.md R367, R368). -/
def State.branchIf (s : State) (cond : Bool) (k : BitVec 7) : State :=
  s.setPc (if cond then s.relTarget (k.signExtend 22) else s.pcPlus 1)

end Sys2Proof.Machine
end

