-- ==== Sys2Proof/Machine/Arithmetic.lean ====
section
/-! DEFINITION. The meanings of 40_arithmetic.md: addition, subtraction, logic, compare, increment, multiply, DES. -/

namespace Sys2Proof.Machine

/-- ADD: `R[d] <- AddFlags8(R[d], R[r], 0)` (40_arithmetic.md R161). -/
def execAdd (d r : Reg) (s : State) : Host.Outcome State Fault Refusal :=
  whenPresent (.add d r) s <| .ok <|
    s.finish d (add8 (s.reg d) (s.reg r) false)
      (addFlags8 s.sreg (s.reg d) (s.reg r) false)

/-- ADC: `R[d] <- AddFlags8(R[d], R[r], C)` (40_arithmetic.md R162). -/
def execAdc (d r : Reg) (s : State) : Host.Outcome State Fault Refusal :=
  whenPresent (.adc d r) s <| .ok <|
    s.finish d (add8 (s.reg d) (s.reg r) (flagC s.sreg))
      (addFlags8 s.sreg (s.reg d) (s.reg r) (flagC s.sreg))

/-- ADIW: the pair plus a 6-bit constant (40_arithmetic.md R163). -/
def execAdiw (d : Reg) (k : BitVec 6) (s : State) : Host.Outcome State Fault Refusal :=
  whenPresent (.adiw d k) s <| .ok <|
    let a := s.pair d
    let r := a + k.setWidth 16
    s.finishPair d r (adiwFlags s.sreg a r)

/-- SUB: `R[d] <- SubFlags8(R[d], R[r], 0, false)` (40_arithmetic.md R164). -/
def execSub (d r : Reg) (s : State) : Host.Outcome State Fault Refusal :=
  whenPresent (.sub d r) s <| .ok <|
    s.finish d (sub8 (s.reg d) (s.reg r) false)
      (subFlags8 s.sreg (s.reg d) (s.reg r) false false)

/-- SUBI: `R[d] <- SubFlags8(R[d], K, 0, false)` (40_arithmetic.md R165). -/
def execSubi (d : Reg) (k : Byte) (s : State) : Host.Outcome State Fault Refusal :=
  whenPresent (.subi d k) s <| .ok <| s.finish d (sub8 (s.reg d) k false) (subFlags8 s.sreg (s.reg d) k false false)

/-- SBC: `R[d] <- SubFlags8(R[d], R[r], C, true)` (40_arithmetic.md R166). -/
def execSbc (d r : Reg) (s : State) : Host.Outcome State Fault Refusal :=
  whenPresent (.sbc d r) s <| .ok <|
    s.finish d (sub8 (s.reg d) (s.reg r) (flagC s.sreg))
      (subFlags8 s.sreg (s.reg d) (s.reg r) (flagC s.sreg) true)

/-- SBCI: `R[d] <- SubFlags8(R[d], K, C, true)` (40_arithmetic.md R167). -/
def execSbci (d : Reg) (k : Byte) (s : State) : Host.Outcome State Fault Refusal :=
  whenPresent (.sbci d k) s <| .ok <|
    s.finish d (sub8 (s.reg d) k (flagC s.sreg)) (subFlags8 s.sreg (s.reg d) k (flagC s.sreg) true)

/-- SBIW: the pair minus a 6-bit constant (40_arithmetic.md R168). -/
def execSbiw (d : Reg) (k : BitVec 6) (s : State) : Host.Outcome State Fault Refusal :=
  whenPresent (.sbiw d k) s <| .ok <|
    let a := s.pair d
    let r := a - k.setWidth 16
    s.finishPair d r (sbiwFlags s.sreg a r)

/-- AND (40_arithmetic.md R169). -/
def execAnd (d r : Reg) (s : State) : Host.Outcome State Fault Refusal :=
  whenPresent (.and d r) s <| .ok <|
    let v := s.reg d &&& s.reg r
    s.finish d v (logicFlags8 s.sreg v)

/-- OR (40_arithmetic.md R171). -/
def execOr (d r : Reg) (s : State) : Host.Outcome State Fault Refusal :=
  whenPresent (.or d r) s <| .ok <|
    let v := s.reg d ||| s.reg r
    s.finish d v (logicFlags8 s.sreg v)

/-- EOR (40_arithmetic.md R173). -/
def execEor (d r : Reg) (s : State) : Host.Outcome State Fault Refusal :=
  whenPresent (.eor d r) s <| .ok <|
    let v := s.reg d ^^^ s.reg r
    s.finish d v (logicFlags8 s.sreg v)

/-- ANDI (40_arithmetic.md R170). -/
def execAndi (d : Reg) (k : Byte) (s : State) : Host.Outcome State Fault Refusal :=
  whenPresent (.andi d k) s <| .ok <|
    let v := s.reg d &&& k
    s.finish d v (logicFlags8 s.sreg v)

/-- ORI (40_arithmetic.md R172). -/
def execOri (d : Reg) (k : Byte) (s : State) : Host.Outcome State Fault Refusal :=
  whenPresent (.ori d k) s <| .ok <|
    let v := s.reg d ||| k
    s.finish d v (logicFlags8 s.sreg v)

/-- COM: `0xFF - R[d]` (40_arithmetic.md R174). -/
def execCom (d : Reg) (s : State) : Host.Outcome State Fault Refusal :=
  whenPresent (.com d) s <| .ok <|
    let v := 0xFF - s.reg d
    s.finish d v (comFlags s.sreg v)

/-- NEG: `R[d] <- SubFlags8(0x00, R[d], 0, false)` (40_arithmetic.md R175). -/
def execNeg (d : Reg) (s : State) : Host.Outcome State Fault Refusal :=
  whenPresent (.neg d) s <| .ok <| s.finish d (sub8 0x00 (s.reg d) false) (subFlags8 s.sreg 0x00 (s.reg d) false false)

/-- CP: the flags of SUB (40_arithmetic.md R176). -/
def execCp (d r : Reg) (s : State) : Host.Outcome State Fault Refusal :=
  whenPresent (.cp d r) s <| .ok <| s.finishFlags (subFlags8 s.sreg (s.reg d) (s.reg r) false false)

/-- CPC: the flags of SBC (40_arithmetic.md R177). -/
def execCpc (d r : Reg) (s : State) : Host.Outcome State Fault Refusal :=
  whenPresent (.cpc d r) s <| .ok <| s.finishFlags (subFlags8 s.sreg (s.reg d) (s.reg r) (flagC s.sreg) true)

/-- CPI: the flags of SUBI (40_arithmetic.md R178). -/
def execCpi (d : Reg) (k : Byte) (s : State) : Host.Outcome State Fault Refusal :=
  whenPresent (.cpi d k) s <| .ok <| s.finishFlags (subFlags8 s.sreg (s.reg d) k false false)

/-- INC (40_arithmetic.md R179). -/
def execInc (d : Reg) (s : State) : Host.Outcome State Fault Refusal :=
  whenPresent (.inc d) s <| .ok <|
    let v := s.reg d + 1
    s.finish d v (incFlags s.sreg v)

/-- DEC (40_arithmetic.md R180). -/
def execDec (d : Reg) (s : State) : Host.Outcome State Fault Refusal :=
  whenPresent (.dec d) s <| .ok <|
    let v := s.reg d - 1
    s.finish d v (decFlags s.sreg v)

/-- The 16-bit product of two bytes, each read as signed or unsigned (40_arithmetic.md R181 to R186). -/
def product (signedD signedR : Bool) (a b : Byte) : BitVec 16 :=
  (if signedD then a.signExtend 16 else a.setWidth 16) * (if signedR then b.signExtend 16 else b.setWidth 16)

/-- The end of MUL, MULS, MULSU: `RP[0] <- p` (40_arithmetic.md R186). -/
def State.finishProduct (s : State) (p : BitVec 16) : State := s.finishPair 0 p (mulFlags s.sreg p p)

/-- The end of FMUL, FMULS, FMULSU: `RP[0] <- p << 1`, C the bit shifted out (40_arithmetic.md R183). -/
def State.finishFraction (s : State) (p : BitVec 16) : State := s.finishPair 0 (p <<< 1) (mulFlags s.sreg p (p <<< 1))

/-- MULS (40_arithmetic.md R181). -/
def execMuls (d r : Reg) (s : State) : Host.Outcome State Fault Refusal :=
  whenPresent (.muls d r) s <| .ok <| s.finishProduct (product true true (s.reg d) (s.reg r))

/-- MULSU (40_arithmetic.md R182). -/
def execMulsu (d r : Reg) (s : State) : Host.Outcome State Fault Refusal :=
  whenPresent (.mulsu d r) s <| .ok <| s.finishProduct (product true false (s.reg d) (s.reg r))

/-- FMUL (40_arithmetic.md R183). -/
def execFmul (d r : Reg) (s : State) : Host.Outcome State Fault Refusal :=
  whenPresent (.fmul d r) s <| .ok <| s.finishFraction (product false false (s.reg d) (s.reg r))

/-- FMULS (40_arithmetic.md R184). -/
def execFmuls (d r : Reg) (s : State) : Host.Outcome State Fault Refusal :=
  whenPresent (.fmuls d r) s <| .ok <| s.finishFraction (product true true (s.reg d) (s.reg r))

/-- FMULSU (40_arithmetic.md R185). -/
def execFmulsu (d r : Reg) (s : State) : Host.Outcome State Fault Refusal :=
  whenPresent (.fmulsu d r) s <| .ok <| s.finishFraction (product true false (s.reg d) (s.reg r))

/-- MUL (40_arithmetic.md R186). -/
def execMul (d r : Reg) (s : State) : Host.Outcome State Fault Refusal :=
  whenPresent (.mul d r) s <| .ok <| s.finishProduct (product false false (s.reg d) (s.reg r))

/-- DES: `raise Unmodelled("DES")` (40_arithmetic.md R189). Log 13. -/
def execDes (k : BitVec 4) (s : State) : Host.Outcome State Fault Refusal :=
  whenPresentRefuse (.des k) s .unmodelledDes

end Sys2Proof.Machine
end

