-- ==== Sys2Proof/Machine/BitOps.lean ====
section
/-! DEFINITION. The meanings of 41_bit_and_others.md: shifts, SWAP, the bits of SREG, of I/O registers and T, NOP and the
system instructions. -/

namespace Sys2Proof.Machine

/-- LSR: one bit to the right, 0 enters bit 7 (41_bit_and_others.md R220). -/
def execLsr (d : Reg) (s : State) : Host.Outcome State Fault Refusal :=
  whenPresent (.lsr d) s <| .ok <|
    let a := s.reg d
    let v : Byte := a >>> 1
    s.finish d v (shiftFlags s.sreg a v)

/-- ROR: one bit to the right, C enters bit 7 (41_bit_and_others.md R221). -/
def execRor (d : Reg) (s : State) : Host.Outcome State Fault Refusal :=
  whenPresent (.ror d) s <| .ok <|
    let a := s.reg d
    let v : Byte := BitVec.ofBool (flagC s.sreg) ++ a.extractLsb' 1 7
    s.finish d v (shiftFlags s.sreg a v)

/-- ASR: one bit to the right, bit 7 keeps its value (41_bit_and_others.md R222). -/
def execAsr (d : Reg) (s : State) : Host.Outcome State Fault Refusal :=
  whenPresent (.asr d) s <| .ok <|
    let a := s.reg d
    let v : Byte := a.extractLsb' 7 1 ++ a.extractLsb' 1 7
    s.finish d v (shiftFlags s.sreg a v)

/-- SWAP: the two nibbles exchanged (41_bit_and_others.md R223). -/
def execSwap (d : Reg) (s : State) : Host.Outcome State Fault Refusal :=
  whenPresent (.swap d) s <| .ok <|
    let a := s.reg d
    (s.setReg d (a.extractLsb' 0 4 ++ a.extractLsb' 4 4)).advance 1

/-- BSET: one bit of SREG set; SEI (b = 7) starts the hold-off (41_bit_and_others.md R226, 60_exceptions.md R393). -/
def execBset (b : BitVec 3) (s : State) : Host.Outcome State Fault Refusal :=
  whenPresent (.bset b) s <| .ok <|
    let t := s.setSreg (withBit s.sreg b true)
    (if b = bitI then t.setIrqInhibit true else t).advance 1

/-- BCLR: one bit of SREG cleared (41_bit_and_others.md R227). -/
def execBclr (b : BitVec 3) (s : State) : Host.Outcome State Fault Refusal :=
  whenPresent (.bclr b) s <| .ok <| (s.setSreg (withBit s.sreg b false)).advance 1

/-- SBI: one bit of an I/O register set: a read of the byte, a write of the byte (41_bit_and_others.md R230). -/
def execSbi (a : BitVec 5) (b : BitVec 3) (s : State) : Host.Outcome State Fault Refusal :=
  whenPresent (.sbi a b) s <| .ok <|
    let x := s.ioRead (a.setWidth 6)
    (x.2.ioWrite (a.setWidth 6) (withBit x.1 b true)).advance 1

/-- CBI: one bit of an I/O register cleared: a read of the byte, a write of the byte (41_bit_and_others.md R231). -/
def execCbi (a : BitVec 5) (b : BitVec 3) (s : State) : Host.Outcome State Fault Refusal :=
  whenPresent (.cbi a b) s <| .ok <|
    let x := s.ioRead (a.setWidth 6)
    (x.2.ioWrite (a.setWidth 6) (withBit x.1 b false)).advance 1

/-- BST: `T <- R[d][b]` (41_bit_and_others.md R232). -/
def execBst (d : Reg) (b : BitVec 3) (s : State) : Host.Outcome State Fault Refusal :=
  whenPresent (.bst d b) s <| .ok <| (s.setSreg (withBit s.sreg bitT (bitOf (s.reg d) b))).advance 1

/-- BLD: `R[d][b] <- T` (41_bit_and_others.md R233). -/
def execBld (d : Reg) (b : BitVec 3) (s : State) : Host.Outcome State Fault Refusal :=
  whenPresent (.bld d b) s <| .ok <| (s.setReg d (withBit (s.reg d) b (flagT s.sreg))).advance 1

/-- NOP (41_bit_and_others.md R234). -/
def execNop (s : State) : Host.Outcome State Fault Refusal :=
  whenPresent .nop s <| .ok <| s.advance 1

/-- SLEEP: the core sleeps where the platform enables it (41_bit_and_others.md R236). -/
def execSleep (s : State) : Host.Outcome State Fault Refusal :=
  whenPresent .sleep s <| .ok <| (if s.cfg.sleepEnabled then s.setSleeping true else s).advance 1

/-- WDR: an event for the platform's watchdog (41_bit_and_others.md R237). -/
def execWdr (s : State) : Host.Outcome State Fault Refusal :=
  whenPresent .wdr s <| .ok <| (s.emit .watchdogReset).advance 1

/-- BREAK: `raise Unmodelled("BREAK")` (41_bit_and_others.md R238). Log 13. -/
def execBreak (s : State) : Host.Outcome State Fault Refusal :=
  whenPresentRefuse .break_ s .unmodelledBreak

end Sys2Proof.Machine
end

