-- ==== Sys2Proof/Machine/Branch.lean ====
section
/-! DEFINITION. The meanings of 45_branch.md: skips and conditional branches. -/

namespace Sys2Proof.Machine

/-- CPSE: skip if equal (45_branch.md R362). -/
def execCpse (d r : Reg) (s : State) : Host.Outcome State Fault Refusal :=
  whenPresent (.cpse d r) s <| s.skipIf (s.reg d == s.reg r)

/-- SBRC: skip if the register bit is clear (45_branch.md R363). -/
def execSbrc (d : Reg) (b : BitVec 3) (s : State) : Host.Outcome State Fault Refusal :=
  whenPresent (.sbrc d b) s <| s.skipIf (!bitOf (s.reg d) b)

/-- SBRS: skip if the register bit is set (45_branch.md R364). -/
def execSbrs (d : Reg) (b : BitVec 3) (s : State) : Host.Outcome State Fault Refusal :=
  whenPresent (.sbrs d b) s <| s.skipIf (bitOf (s.reg d) b)

/-- SBIC: skip if the I/O bit is clear (45_branch.md R365). -/
def execSbic (a : BitVec 5) (b : BitVec 3) (s : State) : Host.Outcome State Fault Refusal :=
  whenPresent (.sbic a b) s <|
    let x := s.ioRead (a.setWidth 6)
    x.2.skipIf (!bitOf x.1 b)

/-- SBIS: skip if the I/O bit is set (45_branch.md R366). -/
def execSbis (a : BitVec 5) (b : BitVec 3) (s : State) : Host.Outcome State Fault Refusal :=
  whenPresent (.sbis a b) s <|
    let x := s.ioRead (a.setWidth 6)
    x.2.skipIf (bitOf x.1 b)

/-- BRBS: branch if the status flag is set (45_branch.md R367). -/
def execBrbs (b : BitVec 3) (k : BitVec 7) (s : State) : Host.Outcome State Fault Refusal :=
  whenPresent (.brbs b k) s <| .ok <| s.branchIf (bitOf s.sreg b) k

/-- BRBC: branch if the status flag is clear (45_branch.md R368). -/
def execBrbc (b : BitVec 3) (k : BitVec 7) (s : State) : Host.Outcome State Fault Refusal :=
  whenPresent (.brbc b k) s <| .ok <| s.branchIf (!bitOf s.sreg b) k

end Sys2Proof.Machine
end

