-- ==== Sys2Proof/Machine/Call.lean ====
section
/-! DEFINITION. The meanings of 44_call.md: calls and returns. -/

namespace Sys2Proof.Machine

/-- RCALL (44_call.md R341). -/
def execRcall (k : BitVec 12) (s : State) : Host.Outcome State Fault Refusal :=
  whenPresent (.rcall k) s <| s.callTo 1 (s.relTarget (k.signExtend 22))

/-- ICALL (44_call.md R342). -/
def execIcall (s : State) : Host.Outcome State Fault Refusal :=
  whenPresent .icall s <| s.callTo 1 s.indirectTarget

/-- EICALL (44_call.md R343). -/
def execEicall (s : State) : Host.Outcome State Fault Refusal :=
  whenPresent .eicall s <| s.callTo 1 s.extendedTarget

/-- CALL (44_call.md R344). -/
def execCall (k : BitVec 22) (s : State) : Host.Outcome State Fault Refusal :=
  whenPresent (.call k) s <| s.callTo 2 (truncPc s.cfg k)

/-- RET: `pc <- PopPC()` (44_call.md R347). -/
def execRet (s : State) : Host.Outcome State Fault Refusal :=
  whenPresent .ret s <| s.popPc.map fun (v, t) => t.setPc v

/-- RETI: the return from the machine's one exception (44_call.md R348). -/
def execReti (s : State) : Host.Outcome State Fault Refusal :=
  whenPresent .reti s s.returnFromInterrupt

end Sys2Proof.Machine
end

