-- ==== Sys2Proof/Machine/Jump.lean ====
section
/-! DEFINITION. The meanings of 43_jump.md: unconditional jumps. -/

namespace Sys2Proof.Machine

/-- RJMP (43_jump.md R320). -/
def execRjmp (k : BitVec 12) (s : State) : Host.Outcome State Fault Refusal :=
  whenPresent (.rjmp k) s <| .ok <| s.setPc (s.relTarget (k.signExtend 22))

/-- IJMP (43_jump.md R321). -/
def execIjmp (s : State) : Host.Outcome State Fault Refusal :=
  whenPresent .ijmp s <| .ok <| s.setPc s.indirectTarget

/-- EIJMP (43_jump.md R322). -/
def execEijmp (s : State) : Host.Outcome State Fault Refusal :=
  whenPresent .eijmp s <| .ok <| s.setPc s.extendedTarget

/-- JMP (43_jump.md R323). -/
def execJmp (k : BitVec 22) (s : State) : Host.Outcome State Fault Refusal :=
  whenPresent (.jmp k) s <| .ok <| s.setPc (truncPc s.cfg k)

end Sys2Proof.Machine
end

