-- ==== Sys2Proof/Machine/Reserved.lean ====
section
/-! DEFINITION. The words no instruction is given to: the rows the source reserves (30_encoding.md R140) and the words its table
does not list (R141). `raise ReservedInstruction(w)`. Log 14. -/

namespace Sys2Proof.Machine

/-- UNLISTED_0000_0000 (30_encoding.md R141). -/
def execUnlisted0000 (w : Word) (_s : State) : Host.Outcome State Fault Refusal :=
  .fault (.reservedInstruction w)

/-- UNLISTED_LD_0011 (30_encoding.md R141). -/
def execUnlistedLd0011 (w : Word) (_s : State) : Host.Outcome State Fault Refusal :=
  .fault (.reservedInstruction w)

/-- UNLISTED_LD_1000 (30_encoding.md R141). -/
def execUnlistedLd1000 (w : Word) (_s : State) : Host.Outcome State Fault Refusal :=
  .fault (.reservedInstruction w)

/-- UNLISTED_LD_1011 (30_encoding.md R141). -/
def execUnlistedLd1011 (w : Word) (_s : State) : Host.Outcome State Fault Refusal :=
  .fault (.reservedInstruction w)

/-- UNLISTED_ST_0011 (30_encoding.md R141). -/
def execUnlistedSt0011 (w : Word) (_s : State) : Host.Outcome State Fault Refusal :=
  .fault (.reservedInstruction w)

/-- UNLISTED_ST_1000 (30_encoding.md R141). -/
def execUnlistedSt1000 (w : Word) (_s : State) : Host.Outcome State Fault Refusal :=
  .fault (.reservedInstruction w)

/-- UNLISTED_ST_1011 (30_encoding.md R141). -/
def execUnlistedSt1011 (w : Word) (_s : State) : Host.Outcome State Fault Refusal :=
  .fault (.reservedInstruction w)

/-- RESERVED_9404 (30_encoding.md R140). -/
def execReserved9404 (w : Word) (_s : State) : Host.Outcome State Fault Refusal :=
  .fault (.reservedInstruction w)

/-- RESERVED_9528 (30_encoding.md R140). -/
def execReserved9528 (w : Word) (_s : State) : Host.Outcome State Fault Refusal :=
  .fault (.reservedInstruction w)

/-- RESERVED_9548 (30_encoding.md R140). -/
def execReserved9548 (w : Word) (_s : State) : Host.Outcome State Fault Refusal :=
  .fault (.reservedInstruction w)

/-- RESERVED_95B8 (30_encoding.md R140). -/
def execReserved95b8 (w : Word) (_s : State) : Host.Outcome State Fault Refusal :=
  .fault (.reservedInstruction w)

/-- UNLISTED_94x9 (30_encoding.md R141). -/
def execUnlisted94x9 (w : Word) (_s : State) : Host.Outcome State Fault Refusal :=
  .fault (.reservedInstruction w)

/-- UNLISTED_95xB (30_encoding.md R141). -/
def execUnlisted95xB (w : Word) (_s : State) : Host.Outcome State Fault Refusal :=
  .fault (.reservedInstruction w)

/-- RESERVED_F808 (30_encoding.md R140). -/
def execReservedF808 (w : Word) (_s : State) : Host.Outcome State Fault Refusal :=
  .fault (.reservedInstruction w)

end Sys2Proof.Machine
end

