-- ==== Sys2Proof/Machine/Transfer.lean ====
section
/-! DEFINITION. The meanings of 42_transfer.md: register moves, loads and stores, program-memory loads, I/O, stack, atomic
read-modify-write. -/

namespace Sys2Proof.Machine

/-- MOV (42_transfer.md R260). -/
def execMov (d r : Reg) (s : State) : Host.Outcome State Fault Refusal :=
  whenPresent (.mov d r) s <| .ok <| (s.setReg d (s.reg r)).advance 1

/-- MOVW (42_transfer.md R261). -/
def execMovw (d r : Reg) (s : State) : Host.Outcome State Fault Refusal :=
  whenPresent (.movw d r) s <| .ok <| (s.setPair d (s.pair r)).advance 1

/-- LDI (42_transfer.md R262). -/
def execLdi (d : Reg) (k : Byte) (s : State) : Host.Outcome State Fault Refusal :=
  whenPresent (.ldi d k) s <| .ok <| (s.setReg d k).advance 1

/-- LDS, two words (42_transfer.md R266). -/
def execLds (d : Reg) (k : BitVec 16) (s : State) : Host.Outcome State Fault Refusal :=
  whenPresent (.lds d k) s <| (s.loadFrom d (s.directAddr k)).map fun t => t.advance 2

/-- STS, two words (42_transfer.md R267). -/
def execSts (d : Reg) (k : BitVec 16) (s : State) : Host.Outcome State Fault Refusal :=
  whenPresent (.sts d k) s <| (s.storeTo (s.directAddr k) (s.reg d)).map fun t => t.advance 2

/-- LDS, one word, AVRtiny (42_transfer.md R268). -/
def execLdsTiny (d : Reg) (a : Byte) (s : State) : Host.Outcome State Fault Refusal :=
  whenPresent (.ldsTiny d a) s <| (s.loadFrom d (a.setWidth 24)).map fun t => t.advance 1

/-- STS, one word, AVRtiny (42_transfer.md R269). -/
def execStsTiny (d : Reg) (a : Byte) (s : State) : Host.Outcome State Fault Refusal :=
  whenPresent (.stsTiny d a) s <| (s.storeTo (a.setWidth 24) (s.reg d)).map fun t => t.advance 1

/-- LDD Rd,Z+q (42_transfer.md R271). -/
def execLddZ (d : Reg) (q : BitVec 6) (s : State) : Host.Outcome State Fault Refusal :=
  whenPresent (.lddZ d q) s <| (s.loadFrom d (s.ptrPlus .z (q.setWidth 24))).map fun t => t.advance 1

/-- STD Z+q,Rr (42_transfer.md R272). -/
def execStdZ (d : Reg) (q : BitVec 6) (s : State) : Host.Outcome State Fault Refusal :=
  whenPresent (.stdZ d q) s <| (s.storeTo (s.ptrPlus .z (q.setWidth 24)) (s.reg d)).map fun t => t.advance 1

/-- LDD Rd,Y+q (42_transfer.md R271). -/
def execLddY (d : Reg) (q : BitVec 6) (s : State) : Host.Outcome State Fault Refusal :=
  whenPresent (.lddY d q) s <| (s.loadFrom d (s.ptrPlus .y (q.setWidth 24))).map fun t => t.advance 1

/-- STD Y+q,Rr (42_transfer.md R272). -/
def execStdY (d : Reg) (q : BitVec 6) (s : State) : Host.Outcome State Fault Refusal :=
  whenPresent (.stdY d q) s <| (s.storeTo (s.ptrPlus .y (q.setWidth 24)) (s.reg d)).map fun t => t.advance 1

/-- LD Rd,X (42_transfer.md R273). -/
def execLdX (d : Reg) (s : State) : Host.Outcome State Fault Refusal :=
  whenPresent (.ldX d) s <| (s.loadFrom d (s.ptrGet .x)).map fun t => t.advance 1

/-- ST X,Rr (42_transfer.md R274). -/
def execStX (d : Reg) (s : State) : Host.Outcome State Fault Refusal :=
  whenPresent (.stX d) s <| (s.storeTo (s.ptrGet .x) (s.reg d)).map fun t => t.advance 1

/-- LD Rd,X+ (42_transfer.md R273). -/
def execLdXinc (d : Reg) (s : State) : Host.Outcome State Fault Refusal :=
  whenPresent (.ldXinc d) s <|
    unlessPointerHalf (.ldXinc d) .x d <| (s.loadInc d .x).map fun t => t.advance 1

/-- ST X+,Rr (42_transfer.md R274). -/
def execStXinc (d : Reg) (s : State) : Host.Outcome State Fault Refusal :=
  whenPresent (.stXinc d) s <|
    unlessPointerHalf (.stXinc d) .x d <| (s.storeInc d .x).map fun t => t.advance 1

/-- LD Rd,-X (42_transfer.md R273). -/
def execLdXdec (d : Reg) (s : State) : Host.Outcome State Fault Refusal :=
  whenPresent (.ldXdec d) s <|
    unlessPointerHalf (.ldXdec d) .x d <| (s.loadDec d .x).map fun t => t.advance 1

/-- ST -X,Rr (42_transfer.md R274). -/
def execStXdec (d : Reg) (s : State) : Host.Outcome State Fault Refusal :=
  whenPresent (.stXdec d) s <|
    unlessPointerHalf (.stXdec d) .x d <| (s.storeDec d .x).map fun t => t.advance 1

/-- LD Rd,Y+ (42_transfer.md R273). -/
def execLdYinc (d : Reg) (s : State) : Host.Outcome State Fault Refusal :=
  whenPresent (.ldYinc d) s <|
    unlessPointerHalf (.ldYinc d) .y d <| (s.loadInc d .y).map fun t => t.advance 1

/-- ST Y+,Rr (42_transfer.md R274). -/
def execStYinc (d : Reg) (s : State) : Host.Outcome State Fault Refusal :=
  whenPresent (.stYinc d) s <|
    unlessPointerHalf (.stYinc d) .y d <| (s.storeInc d .y).map fun t => t.advance 1

/-- LD Rd,-Y (42_transfer.md R273). -/
def execLdYdec (d : Reg) (s : State) : Host.Outcome State Fault Refusal :=
  whenPresent (.ldYdec d) s <|
    unlessPointerHalf (.ldYdec d) .y d <| (s.loadDec d .y).map fun t => t.advance 1

/-- ST -Y,Rr (42_transfer.md R274). -/
def execStYdec (d : Reg) (s : State) : Host.Outcome State Fault Refusal :=
  whenPresent (.stYdec d) s <|
    unlessPointerHalf (.stYdec d) .y d <| (s.storeDec d .y).map fun t => t.advance 1

/-- LD Rd,Z+ (42_transfer.md R273). -/
def execLdZinc (d : Reg) (s : State) : Host.Outcome State Fault Refusal :=
  whenPresent (.ldZinc d) s <|
    unlessPointerHalf (.ldZinc d) .z d <| (s.loadInc d .z).map fun t => t.advance 1

/-- ST Z+,Rr (42_transfer.md R274). -/
def execStZinc (d : Reg) (s : State) : Host.Outcome State Fault Refusal :=
  whenPresent (.stZinc d) s <|
    unlessPointerHalf (.stZinc d) .z d <| (s.storeInc d .z).map fun t => t.advance 1

/-- LD Rd,-Z (42_transfer.md R273). -/
def execLdZdec (d : Reg) (s : State) : Host.Outcome State Fault Refusal :=
  whenPresent (.ldZdec d) s <|
    unlessPointerHalf (.ldZdec d) .z d <| (s.loadDec d .z).map fun t => t.advance 1

/-- ST -Z,Rr (42_transfer.md R274). -/
def execStZdec (d : Reg) (s : State) : Host.Outcome State Fault Refusal :=
  whenPresent (.stZdec d) s <|
    unlessPointerHalf (.stZdec d) .z d <| (s.storeDec d .z).map fun t => t.advance 1

/-- LPM: `R[0] <- ProgByte(zext(Z))` (42_transfer.md R280). -/
def execLpm (s : State) : Host.Outcome State Fault Refusal :=
  whenPresent .lpm s <| (s.progByte (s.pair 30).toNat).map fun v => (s.setReg 0 v).advance 1

/-- LPM Rd,Z (42_transfer.md R281). -/
def execLpmRdZ (d : Reg) (s : State) : Host.Outcome State Fault Refusal :=
  whenPresent (.lpmRdZ d) s <| (s.progByte (s.pair 30).toNat).map fun v => (s.setReg d v).advance 1

/-- LPM Rd,Z+: the increment is 16-bit (42_transfer.md R282). -/
def execLpmRdZinc (d : Reg) (s : State) : Host.Outcome State Fault Refusal :=
  whenPresent (.lpmRdZinc d) s <| unlessPointerHalf (.lpmRdZinc d) .z d <|
    (s.progByte (s.pair 30).toNat).map fun v => ((s.setPair 30 (s.pair 30 + 1)).setReg d v).advance 1

/-- ELPM: `R[0] <- ProgByte(RAMPZ:Z)` (42_transfer.md R283). -/
def execElpm (s : State) : Host.Outcome State Fault Refusal :=
  whenPresent .elpm s <| (s.progByte s.elpmAddr.toNat).map fun v => (s.setReg 0 v).advance 1

/-- ELPM Rd,Z (42_transfer.md R284). -/
def execElpmRdZ (d : Reg) (s : State) : Host.Outcome State Fault Refusal :=
  whenPresent (.elpmRdZ d) s <| (s.progByte s.elpmAddr.toNat).map fun v => (s.setReg d v).advance 1

/-- ELPM Rd,Z+: the increment carries into RAMPZ (42_transfer.md R285). -/
def execElpmRdZinc (d : Reg) (s : State) : Host.Outcome State Fault Refusal :=
  whenPresent (.elpmRdZinc d) s <| unlessPointerHalf (.elpmRdZinc d) .z d <|
    (s.progByte s.elpmAddr.toNat).map fun v => ((s.ptrSet .z (s.ptrPlus .z 1)).setReg d v).advance 1

/-- SPM: `raise Unmodelled("SPM")` (42_transfer.md R293). Log 13. -/
def execSpm (s : State) : Host.Outcome State Fault Refusal :=
  whenPresentRefuse .spm s .unmodelledSpm

/-- SPM Z+: `raise Unmodelled("SPM")` (42_transfer.md R294). Log 13. -/
def execSpmZinc (s : State) : Host.Outcome State Fault Refusal :=
  whenPresentRefuse .spmZinc s .unmodelledSpm

/-- IN: `R[d] <- IoRead(A)` (42_transfer.md R290). -/
def execIn (d : Reg) (a : BitVec 6) (s : State) : Host.Outcome State Fault Refusal :=
  whenPresent (.in_ d a) s <| .ok <|
    let x := s.ioRead a
    (x.2.setReg d x.1).advance 1

/-- OUT: `IoWrite(A, R[d])` (42_transfer.md R291). -/
def execOut (d : Reg) (a : BitVec 6) (s : State) : Host.Outcome State Fault Refusal :=
  whenPresent (.out d a) s <| .ok <| (s.ioWrite a (s.reg d)).advance 1

/-- PUSH: `Push8(R[d])` (42_transfer.md R296). -/
def execPush (d : Reg) (s : State) : Host.Outcome State Fault Refusal :=
  whenPresent (.push d) s <| (s.push8 (s.reg d)).map fun t => t.advance 1

/-- POP: `R[d] <- Pop8()` (42_transfer.md R297). -/
def execPop (d : Reg) (s : State) : Host.Outcome State Fault Refusal :=
  whenPresent (.pop d) s <| s.pop8.map fun (v, t) => (t.setReg d v).advance 1

/-- XCH (42_transfer.md R300). -/
def execXch (d : Reg) (s : State) : Host.Outcome State Fault Refusal :=
  whenPresent (.xch d) s <| (s.exchange d (fun _ r => r)).map fun t => t.advance 1

/-- LAS (42_transfer.md R301). -/
def execLas (d : Reg) (s : State) : Host.Outcome State Fault Refusal :=
  whenPresent (.las d) s <| (s.exchange d (fun old r => old ||| r)).map fun t => t.advance 1

/-- LAC (42_transfer.md R302). -/
def execLac (d : Reg) (s : State) : Host.Outcome State Fault Refusal :=
  whenPresent (.lac d) s <| (s.exchange d (fun old r => old &&& ~~~r)).map fun t => t.advance 1

/-- LAT (42_transfer.md R303). -/
def execLat (d : Reg) (s : State) : Host.Outcome State Fault Refusal :=
  whenPresent (.lat d) s <| (s.exchange d (fun old r => old ^^^ r)).map fun t => t.advance 1

end Sys2Proof.Machine
end

