-- ==== Sys2Proof/Machine/Dispatch.lean ====
section
/-! DEFINITION. The dispatch: one arm per constructor of `Instr`, in the table's order (30_encoding.md table R130). -/

namespace Sys2Proof.Machine

/-- What an instruction does (00_scope.md R16). -/
def exec (i : Instr) (s : State) : Host.Outcome State Fault Refusal :=
  match i with
  | .nop => Sys2Proof.Machine.execNop s
  | .unlisted0000 w => Sys2Proof.Machine.execUnlisted0000 w s
  | .movw d r => Sys2Proof.Machine.execMovw d r s
  | .muls d r => Sys2Proof.Machine.execMuls d r s
  | .mulsu d r => Sys2Proof.Machine.execMulsu d r s
  | .fmul d r => Sys2Proof.Machine.execFmul d r s
  | .fmuls d r => Sys2Proof.Machine.execFmuls d r s
  | .fmulsu d r => Sys2Proof.Machine.execFmulsu d r s
  | .cpc d r => Sys2Proof.Machine.execCpc d r s
  | .sbc d r => Sys2Proof.Machine.execSbc d r s
  | .add d r => Sys2Proof.Machine.execAdd d r s
  | .cpse d r => Sys2Proof.Machine.execCpse d r s
  | .cp d r => Sys2Proof.Machine.execCp d r s
  | .sub d r => Sys2Proof.Machine.execSub d r s
  | .adc d r => Sys2Proof.Machine.execAdc d r s
  | .and d r => Sys2Proof.Machine.execAnd d r s
  | .eor d r => Sys2Proof.Machine.execEor d r s
  | .or d r => Sys2Proof.Machine.execOr d r s
  | .mov d r => Sys2Proof.Machine.execMov d r s
  | .cpi d k => Sys2Proof.Machine.execCpi d k s
  | .sbci d k => Sys2Proof.Machine.execSbci d k s
  | .subi d k => Sys2Proof.Machine.execSubi d k s
  | .ori d k => Sys2Proof.Machine.execOri d k s
  | .andi d k => Sys2Proof.Machine.execAndi d k s
  | .lddZ d q => Sys2Proof.Machine.execLddZ d q s
  | .lddY d q => Sys2Proof.Machine.execLddY d q s
  | .stdZ d q => Sys2Proof.Machine.execStdZ d q s
  | .stdY d q => Sys2Proof.Machine.execStdY d q s
  | .lds d k => Sys2Proof.Machine.execLds d k s
  | .ldZinc d => Sys2Proof.Machine.execLdZinc d s
  | .ldZdec d => Sys2Proof.Machine.execLdZdec d s
  | .unlistedLd0011 w => Sys2Proof.Machine.execUnlistedLd0011 w s
  | .lpmRdZ d => Sys2Proof.Machine.execLpmRdZ d s
  | .lpmRdZinc d => Sys2Proof.Machine.execLpmRdZinc d s
  | .elpmRdZ d => Sys2Proof.Machine.execElpmRdZ d s
  | .elpmRdZinc d => Sys2Proof.Machine.execElpmRdZinc d s
  | .unlistedLd1000 w => Sys2Proof.Machine.execUnlistedLd1000 w s
  | .ldYinc d => Sys2Proof.Machine.execLdYinc d s
  | .ldYdec d => Sys2Proof.Machine.execLdYdec d s
  | .unlistedLd1011 w => Sys2Proof.Machine.execUnlistedLd1011 w s
  | .ldX d => Sys2Proof.Machine.execLdX d s
  | .ldXinc d => Sys2Proof.Machine.execLdXinc d s
  | .ldXdec d => Sys2Proof.Machine.execLdXdec d s
  | .pop d => Sys2Proof.Machine.execPop d s
  | .sts d k => Sys2Proof.Machine.execSts d k s
  | .stZinc d => Sys2Proof.Machine.execStZinc d s
  | .stZdec d => Sys2Proof.Machine.execStZdec d s
  | .unlistedSt0011 w => Sys2Proof.Machine.execUnlistedSt0011 w s
  | .xch d => Sys2Proof.Machine.execXch d s
  | .las d => Sys2Proof.Machine.execLas d s
  | .lac d => Sys2Proof.Machine.execLac d s
  | .lat d => Sys2Proof.Machine.execLat d s
  | .unlistedSt1000 w => Sys2Proof.Machine.execUnlistedSt1000 w s
  | .stYinc d => Sys2Proof.Machine.execStYinc d s
  | .stYdec d => Sys2Proof.Machine.execStYdec d s
  | .unlistedSt1011 w => Sys2Proof.Machine.execUnlistedSt1011 w s
  | .stX d => Sys2Proof.Machine.execStX d s
  | .stXinc d => Sys2Proof.Machine.execStXinc d s
  | .stXdec d => Sys2Proof.Machine.execStXdec d s
  | .push d => Sys2Proof.Machine.execPush d s
  | .com d => Sys2Proof.Machine.execCom d s
  | .neg d => Sys2Proof.Machine.execNeg d s
  | .swap d => Sys2Proof.Machine.execSwap d s
  | .inc d => Sys2Proof.Machine.execInc d s
  | .reserved9404 w => Sys2Proof.Machine.execReserved9404 w s
  | .asr d => Sys2Proof.Machine.execAsr d s
  | .lsr d => Sys2Proof.Machine.execLsr d s
  | .ror d => Sys2Proof.Machine.execRor d s
  | .bset b => Sys2Proof.Machine.execBset b s
  | .bclr b => Sys2Proof.Machine.execBclr b s
  | .ret => Sys2Proof.Machine.execRet s
  | .reti => Sys2Proof.Machine.execReti s
  | .reserved9528 w => Sys2Proof.Machine.execReserved9528 w s
  | .reserved9548 w => Sys2Proof.Machine.execReserved9548 w s
  | .sleep => Sys2Proof.Machine.execSleep s
  | .break_ => Sys2Proof.Machine.execBreak s
  | .wdr => Sys2Proof.Machine.execWdr s
  | .reserved95b8 w => Sys2Proof.Machine.execReserved95b8 w s
  | .lpm => Sys2Proof.Machine.execLpm s
  | .elpm => Sys2Proof.Machine.execElpm s
  | .spm => Sys2Proof.Machine.execSpm s
  | .spmZinc => Sys2Proof.Machine.execSpmZinc s
  | .ijmp => Sys2Proof.Machine.execIjmp s
  | .eijmp => Sys2Proof.Machine.execEijmp s
  | .icall => Sys2Proof.Machine.execIcall s
  | .eicall => Sys2Proof.Machine.execEicall s
  | .unlisted94x9 w => Sys2Proof.Machine.execUnlisted94x9 w s
  | .dec d => Sys2Proof.Machine.execDec d s
  | .des k => Sys2Proof.Machine.execDes k s
  | .unlisted95xB w => Sys2Proof.Machine.execUnlisted95xB w s
  | .jmp k => Sys2Proof.Machine.execJmp k s
  | .call k => Sys2Proof.Machine.execCall k s
  | .adiw d k => Sys2Proof.Machine.execAdiw d k s
  | .sbiw d k => Sys2Proof.Machine.execSbiw d k s
  | .cbi a b => Sys2Proof.Machine.execCbi a b s
  | .sbic a b => Sys2Proof.Machine.execSbic a b s
  | .sbi a b => Sys2Proof.Machine.execSbi a b s
  | .sbis a b => Sys2Proof.Machine.execSbis a b s
  | .mul d r => Sys2Proof.Machine.execMul d r s
  | .in_ d a => Sys2Proof.Machine.execIn d a s
  | .out d a => Sys2Proof.Machine.execOut d a s
  | .rjmp k => Sys2Proof.Machine.execRjmp k s
  | .rcall k => Sys2Proof.Machine.execRcall k s
  | .ldi d k => Sys2Proof.Machine.execLdi d k s
  | .brbs b k => Sys2Proof.Machine.execBrbs b k s
  | .brbc b k => Sys2Proof.Machine.execBrbc b k s
  | .bld d b => Sys2Proof.Machine.execBld d b s
  | .bst d b => Sys2Proof.Machine.execBst d b s
  | .sbrc d b => Sys2Proof.Machine.execSbrc d b s
  | .sbrs d b => Sys2Proof.Machine.execSbrs d b s
  | .reservedF808 w => Sys2Proof.Machine.execReservedF808 w s
  | .ldsTiny d a => Sys2Proof.Machine.execLdsTiny d a s
  | .stsTiny d a => Sys2Proof.Machine.execStsTiny d a s

end Sys2Proof.Machine
end

