-- ==== Sys2Proof/Machine/Fetch.lean ====
section
/-! DEFINITION. What surrounds an instruction in a step (30_encoding.md R150): the platform's answer at the boundary, the
choice of an interrupt, and the fetch. -/

namespace Sys2Proof.Machine

/-- A source number of the variant: 1 to N_IRQ (60_exceptions.md R388). -/
def isSource (c : Cfg) (n : Nat) : Bool := 1 ≤ n && n ≤ c.nIrq

/-- The requests presented, a subset of those pending (60_exceptions.md R388). Log 31. -/
def presentedSources (c : Cfg) (x : PlatformInput) : List Nat :=
  x.presented.filter fun n => isSource c n && x.pending.contains n

/-- An instruction boundary: the platform's next answer is taken (60_exceptions.md R388). With none left nothing is
presented and the pending set stays. Log 7. -/
def State.boundary (s : State) : State × List Nat :=
  match s.inputs with
  | [] => (s, [])
  | x :: rest => ({ s with inputs := rest, pending := x.pending.filter (isSource s.cfg) }, presentedSources s.cfg x)

/-- The interrupt that can be taken: I = 1 and something is presented (60_exceptions.md R390); the lowest source number
goes first (R395). -/
def interruptFor (s : State) (presented : List Nat) : Option Nat := if flagI s.sreg then presented.min? else none

/-- The instruction at the pc (30_encoding.md R150): the first word, then the row, then the second word. The outcomes come
in the order of 60_exceptions.md R383. -/
def State.fetch (s : State) : Res Instr := do
  let w ← s.progWord s.pc
  match decodeWords s.cfg.isTiny w 0 with
  | .error _ => .error (.reservedInstruction w)
  | .ok i =>
    if !i.presentOn s.cfg then .error (.reservedInstruction w)
    else if isTwoWord w then do
      let w2 ← s.progWord (s.pcPlus 1)
      match decodeWords s.cfg.isTiny w w2 with
      | .error _ => .error (.reservedInstruction w)
      | .ok i => pure i
    else pure i

/-- A program word placed from outside, low byte at the even byte address (20_memory.md R84). -/
def State.placeWord (s : State) (wa : ProgAddr) (w : Word) : State :=
  let m := Memory.write .program s.pm (2 * wa.toNat) (lowByte w)
  { s with pm := Memory.write .program m (2 * wa.toNat + 1) (highByte w) }

/-- The state with an instruction's words placed at the pc, awake, and with the interrupt hold-off on, so that the next
step runs it. Logs 5 and 17. -/
def State.placeInstruction (s : State) (w w2 : Word) : State :=
  (((s.placeWord (s.pcPlus 1) w2).placeWord s.pc w).setSleeping false).setIrqInhibit true

end Sys2Proof.Machine
end

