-- ==== Sys2Proof/Machine/Step.lean ====
section
/-! DEFINITION. One step of the core (30_encoding.md R150). -/

namespace Sys2Proof.Machine

/-- Fetch and execute; the hold-off ends at the fetch (60_exceptions.md R393). -/
def runInstruction (s : State) : Host.Outcome State Fault Refusal :=
  match (s.setIrqInhibit false).fetch with
  | .ok i => exec i (s.setIrqInhibit false)
  | .error f => .fault f

/-- One step (30_encoding.md R150): a boundary, then a hold while the core sleeps, an interrupt entry, or an instruction.
The hold, "no step" in R150, is a step that only takes the platform's answer. Log 16. -/
def step (s : State) : Host.Outcome State Fault Refusal :=
  let (t, presented) := s.boundary
  match interruptFor t presented with
  | none => if t.sleeping then .next t else runInstruction t
  | some n =>
    if t.irqInhibit then runInstruction (t.setSleeping false)
    else (t.takeInterrupt n).toOutcome

/-- The state with an instruction of the opcode table stored where the next step fetches: `w` holds its words, the first
in bits 15:0, and the bits above `nbits` are 0. Logs 5 and 17. -/
def State.withFetchWord (s : State) (nbits w : Nat) : State :=
  let v := BitVec.ofNat 32 (w % 2 ^ nbits)
  s.placeInstruction (v.extractLsb' 0 16) (v.extractLsb' 16 16)

end Sys2Proof.Machine
end

