-- ==== Sys2Proof/Safety.lean ====
section
/-! DEFINITION. The words the statements are written in: the invariant of a state, the quiescent state, what an access
of data memory reads, stores and stops on, the frames, and the flags in the arithmetic forms of 40_arithmetic.md R160. -/

namespace Sys2Proof.Machine

/-! ## Whole states -/

/-- A register of `n` implemented bits that reads zero where it is absent (10_state.md R41, D26). -/
def maskedReg (present : Bool) (n : Nat) (v : Byte) : Bool := if present then v.toNat < 2 ^ n else v == 0

/-- What every state of a run satisfies: the variant is one of the family's; the pc, SP, the hardware stack's entries,
the RAMP registers and EIND lie in their widths (10_state.md R25, R38, R40 to R42); the hardware stack has at most three
entries and is AVR1's alone; both memories are in canonical form and list addresses that exist only (R48); what is
pending is a source (60_exceptions.md R388). -/
def State.Inv (s : State) : Bool :=
  s.cfg.valid && s.pc.toNat < 2 ^ s.cfg.pcBits && s.sp.toNat < 2 ^ s.cfg.spBits &&
  s.hwStack.length ≤ 3 && s.hwStack.all (fun v => v.toNat < 2 ^ s.cfg.pcBits) &&
  (s.cfg.stackKind == .hardware3 || s.hwStack.isEmpty) &&
  maskedReg s.cfg.hasRampd s.cfg.rampBits s.rampd && maskedReg s.cfg.hasRampx s.cfg.rampBits s.rampx &&
  maskedReg s.cfg.hasRampy s.cfg.rampBits s.rampy && maskedReg s.cfg.hasRampz s.cfg.rampBits s.rampz &&
  maskedReg s.cfg.hasEind s.cfg.eindBits s.eind &&
  Memory.wf .data s.dm && s.dm.all (fun c => s.cfg.ramStart ≤ c.1 && c.1 ≤ s.cfg.ramEnd) &&
  Memory.wf .program s.pm && s.pm.all (fun c => c.1 < 2 * s.cfg.flashWords) &&
  s.pending.all (isSource s.cfg)

/-- `Quiescent` (60_exceptions.md R404): no interrupt can ever be taken from here, and the core sleeps or the word at
the pc is the jump to itself. -/
def State.Quiescent (s : State) : Prop :=
  (s.cfg.nIrq = 0 ∨ flagI s.sreg = false) ∧ (s.sleeping = true ∨ s.progWord s.pc = .ok 0xCFFF)

/-! ## Frames -/

/-- Every byte of data memory and of program memory reads as before. -/
def SameMemory (s t : State) : Prop :=
  ∀ a, Memory.read .data t.dm a = Memory.read .data s.dm a ∧ t.pmByte a = s.pmByte a

/-- Every general register outside the list reads as before. -/
def RegsKept (s t : State) (written : List Reg) : Prop := ∀ x, x ∉ written → t.reg x = s.reg x

/-- Nothing changed but the general registers, SREG and the pc: no byte of memory, no special register, no platform
event. -/
def OnlyRegsSregPc (s t : State) : Prop :=
  SameMemory s t ∧ t = { s with regs := t.regs, sreg := t.sreg, pc := t.pc }

/-- Nothing changed but SREG and the pc. -/
def OnlySregPc (s t : State) : Prop := SameMemory s t ∧ t = { s with sreg := t.sreg, pc := t.pc }

/-- Nothing changed but the pc. -/
def OnlyPc (s t : State) : Prop := SameMemory s t ∧ t = { s with pc := t.pc }

/-! ## Flags, in the arithmetic forms of 40_arithmetic.md R160 -/

/-- The eight flags of a status byte, in the order I T H S V N Z C. -/
def FlagsAre (sr : Byte) (i t h s v n z c : Bool) : Prop :=
  flagI sr = i ∧ flagT sr = t ∧ flagH sr = h ∧ flagS sr = s ∧ flagV sr = v ∧ flagN sr = n ∧ flagZ sr = z ∧ flagC sr = c

/-- A signed result that does not fit in 8 bits (10_state.md R31). -/
def overflows8 (x : Int) : Bool := x < -128 || 127 < x

/-- A signed result that does not fit in 16 bits (10_state.md R31). -/
def overflows16 (x : Int) : Bool := x < -32768 || 32767 < x

/-- The result and the flags of an addition of bytes with a carry in, by integer arithmetic. -/
def SumOf (old new r a b : Byte) (cin : Bool) : Prop :=
  let n := a.toNat + b.toNat + cin.toNat
  let v := overflows8 (a.toInt + b.toInt + cin.toNat)
  let neg := decide (128 ≤ r.toNat)
  r.toNat = n % 256 ∧
  FlagsAre new (flagI old) (flagT old) (decide (15 < a.toNat % 16 + b.toNat % 16 + cin.toNat)) (neg ^^ v) v neg
    (decide (r.toNat = 0)) (decide (255 < n))

/-- The result and the flags of a subtraction of bytes with a borrow in, by integer arithmetic; with `keepZ` Z can only
be cleared (10_state.md R36). -/
def DifferenceOf (old new r a b : Byte) (bin keepZ : Bool) : Prop :=
  let v := overflows8 (a.toInt - b.toInt - bin.toNat)
  let neg := decide (128 ≤ r.toNat)
  (r.toNat : Int) = ((a.toNat : Int) - b.toNat - bin.toNat) % 256 ∧
  FlagsAre new (flagI old) (flagT old) (decide (a.toNat % 16 < b.toNat % 16 + bin.toNat)) (neg ^^ v) v neg
    (decide (r.toNat = 0) && (!keepZ || flagZ old)) (decide (a.toNat < b.toNat + bin.toNat))

/-- The flags of a logic result: V cleared, N and S the top bit, Z; H and C kept. -/
def LogicFlagsOf (old new r : Byte) : Prop :=
  let neg := decide (128 ≤ r.toNat)
  FlagsAre new (flagI old) (flagT old) (flagH old) neg false neg (decide (r.toNat = 0)) (flagC old)

/-! ## Data memory (20_memory.md R80 to R83) -/

/-- The access is answered by the platform (20_memory.md R80, R81). -/
def answeredByPlatform (c : Cfg) (addr : DataAddr) : Bool :=
  match regionOf c addr with
  | .register _ => false
  | .io a => (ioTarget c a).isNone
  | .extIo => true
  | .ram => false
  | .outer => !c.inFlashWindow addr.toNat && c.inPlatform addr.toNat

/-- A read of the data address gives the byte (20_memory.md R80 to R82). -/
def ReadsAs (s : State) (addr : DataAddr) (v : Byte) : Prop :=
  match regionOf s.cfg addr with
  | .register d => v = s.reg d
  | .io a =>
    match ioTarget s.cfg a with
    | some r => v = s.cpuRead r
    | none => v = Config.platformByte s.draws addr.toNat
  | .extIo => v = Config.platformByte s.draws addr.toNat
  | .ram => Memory.read .data s.dm addr.toNat = some v
  | .outer =>
    if s.cfg.inFlashWindow addr.toNat then v = s.pmByte (addr.toNat - s.cfg.tinyFlashDataBase)
    else s.cfg.inPlatform addr.toNat = true ∧ v = Config.platformByte s.draws addr.toNat

/-- A read of the data address stops (20_memory.md R83, 60_exceptions.md table R381). -/
def ReadStops (s : State) (addr : DataAddr) (f : Fault) : Prop :=
  match regionOf s.cfg addr with
  | .ram => Memory.read .data s.dm addr.toNat = none ∧ f = .readOfUnspecified addr
  | .outer =>
    s.cfg.inFlashWindow addr.toNat = false ∧ s.cfg.inPlatform addr.toNat = false ∧ f = .dataAccessOutOfRange addr
  | _ => False

/-- How many bytes the platform has given after a read of the address. -/
def drawsAfterRead (s : State) (addr : DataAddr) : Nat :=
  if answeredByPlatform s.cfg addr then s.draws + 1 else s.draws

/-- A store to the data address has somewhere to go (20_memory.md R80). -/
def Storable (c : Cfg) (addr : DataAddr) : Prop := regionOf c addr = .outer → c.inWritablePlatform addr.toNat = true

/-- Nothing answers at the data address (20_memory.md R83): every load and every store of it stops with
`DataAccessOutOfRange`. -/
def nothingAt (c : Cfg) (addr : DataAddr) : Prop :=
  ∀ s : State, s.cfg = c → s.memRead addr = .error (.dataAccessOutOfRange addr) ∧
    ∀ v, s.memWrite addr v = .error (.dataAccessOutOfRange addr)

/-- `u` is `s` after one byte is stored at a data address (20_memory.md R80 to R82): every other byte of memory reads as
before, and what the address reaches, and nothing else, has taken the byte. -/
def ByteStored (s u : State) (addr : DataAddr) (v : Byte) : Prop :=
  (∀ a, a ≠ addr.toNat → Memory.read .data u.dm a = Memory.read .data s.dm a) ∧
  (∀ a, u.pmByte a = s.pmByte a) ∧
  match regionOf s.cfg addr with
  | .register d => u.reg d = v ∧ RegsKept s u [d] ∧ u = { s with regs := u.regs }
  | .io a =>
    match ioTarget s.cfg a with
    | some .sreg => u = { s with sreg := v }
    | some .sph => u = { s with sp := lowBits s.cfg.spBits (v ++ lowByte s.spVal) }
    | some .spl =>
      u = { s with sp := lowBits s.cfg.spBits (highByte s.spVal ++ v), irqInhibit := s.irqInhibit || s.cfg.isXmega }
    | some .eind => u = s.setEind v
    | some (.ramp r) => u = s.setRamp r v
    | none => u = { s with trace := .write addr v :: s.trace }
  | .extIo => u = { s with trace := .write addr v :: s.trace }
  | .ram => Memory.read .data u.dm addr.toNat = some v ∧ u = { s with dm := u.dm }
  | .outer => u = { s with trace := .write addr v :: s.trace }

/-- The address lies in internal SRAM (20_memory.md R80). -/
def inRam (c : Cfg) (addr : DataAddr) : Prop := regionOf c addr = .ram

/-- A load of the byte `v` from a data address into R[d]: that register, the pc and the platform's draws, nothing else. -/
def Loaded (s t : State) (d : Reg) (addr : DataAddr) (v : Byte) : Prop :=
  t.reg d = v ∧ RegsKept s t [d] ∧ SameMemory s t ∧
  t = { s with regs := t.regs, pc := t.pc, draws := drawsAfterRead s addr }

/-- An instruction that writes R[d], SREG and the pc of the next word only. -/
def RegResult (s t : State) (d : Reg) : Prop := OnlyRegsSregPc s t ∧ RegsKept s t [d] ∧ t.pc = s.pcPlus 1

/-- An instruction that writes the pair of low register `p`, SREG and the pc of the next word only. -/
def PairResult (s t : State) (p : Reg) : Prop := OnlyRegsSregPc s t ∧ RegsKept s t [p, p + 1] ∧ t.pc = s.pcPlus 1

/-! ## Forms named by their pointer -/

/-- LD with post-increment (`true`) or pre-decrement of a pointer: LD_XINC, LD_XDEC, LD_YINC, LD_YDEC, LD_ZINC,
LD_ZDEC. -/
def updatingLoad (inc : Bool) : Ptr → Reg → Instr
  | .x, d => if inc then .ldXinc d else .ldXdec d
  | .y, d => if inc then .ldYinc d else .ldYdec d
  | .z, d => if inc then .ldZinc d else .ldZdec d

/-- ST with post-increment (`true`) or pre-decrement of a pointer: ST_XINC, ST_XDEC, ST_YINC, ST_YDEC, ST_ZINC,
ST_ZDEC. -/
def updatingStore (inc : Bool) : Ptr → Reg → Instr
  | .x, d => if inc then .stXinc d else .stXdec d
  | .y, d => if inc then .stYinc d else .stYdec d
  | .z, d => if inc then .stZinc d else .stZdec d

/-! ## Steps -/

/-- The next step fetches an instruction: the core is awake and no interrupt is taken at this boundary. -/
def FetchesNext (s : State) : Prop :=
  s.sleeping = false ∧ (interruptFor s.boundary.1 s.boundary.2 = none ∨ s.irqInhibit = true)

/-- The bytes of words in program memory, each low byte first (20_memory.md R84). -/
def bytesOf (ws : List Word) : List Byte := ws.flatMap fun w => [lowByte w, highByte w]

/-- The words the source reserves (30_encoding.md R140) or its table does not list (R141 (a)). -/
def isNoInstruction (w : Word) : Bool :=
  (w &&& 0xFE0F == 0x9404) || (w &&& 0xFFEF == 0x9528) || (w &&& 0xFFCF == 0x9548) || w == 0x95B8 ||
  (w &&& 0xF808 == 0xF808) || (w &&& 0xFF00 == 0x0000 && w != 0x0000) ||
  (w &&& 0xFC0F == 0x9003) || (w &&& 0xFC0F == 0x9008) || (w &&& 0xFC0F == 0x900B) ||
  (w &&& 0xFE0F == 0x9409 && w &&& 0x00E0 != 0x0000) || (w &&& 0xFF0F == 0x950B)

/-- A skip (45_branch.md R361) of instruction `i` in state `s`, where `base` is `s` after the condition is read: past the
next instruction, two words or one, when the condition holds, else to it; a two-word pattern the variant lacks, or a
next word outside program memory, stops a skip that is taken. -/
def SkipEffect (i : Instr) (s base : State) (cond : Bool) : Prop :=
  (∀ w, s.progWord (s.pcPlus 1) = .ok w →
    (isTwoWord w = false →
      exec i s = .next { base with pc := if cond then s.pcPlus 2 else s.pcPlus 1 }) ∧
    (isTwoWord w = true → lacksTwoWord s.cfg w = false →
      exec i s = .next { base with pc := if cond then s.pcPlus 3 else s.pcPlus 1 }) ∧
    (isTwoWord w = true → lacksTwoWord s.cfg w = true →
      exec i s = if cond then .fault (.reservedInstruction w) else .next { base with pc := s.pcPlus 1 })) ∧
  (∀ f, s.progWord (s.pcPlus 1) = .error f →
    exec i s = if cond then .fault f else .next { base with pc := s.pcPlus 1 })

end Sys2Proof.Machine
end

