-- ==== Sys2Proof/Certificates/Slice0/Obligations.lean ====
section
/-! DEFINITION. The statements for the provers, each a proposition about the machine. Each docstring says what it states
and which rule of spec/ or which entry of the assumption log it rests on. -/

open Sys2Proof Sys2Proof.Machine

/-! ## Encoding -/

/-- One word of each family, written out from table R130 of 30_encoding.md, decodes to the instruction it stands for. -/
def Obligations.SampleWordsDecode : Prop :=
  decodeWords false 0b0000110000010010 0 = .ok (.add 1 2) ∧
  decodeWords false 0b1001011011011111 0 = .ok (.adiw 26 63) ∧
  decodeWords false 0b1001010011111000 0 = .ok (.bclr 7) ∧
  decodeWords false 0b1010110100001111 0 = .ok (.lddY 16 63) ∧
  decodeWords false 0b1001000100000000 0x0100 = .ok (.lds 16 0x0100) ∧
  decodeWords false 0b1011111100001101 0 = .ok (.out 16 0x3D) ∧
  decodeWords false 0b1001010000011101 0x1234 = .ok (.jmp 0x031234) ∧
  decodeWords false 0b1101111111111111 0 = .ok (.rcall 0xFFF) ∧
  decodeWords false 0b1111011111101001 0 = .ok (.brbc 1 0x7D) ∧
  decodeWords true 0b1010111011111111 0 = .ok (.stsTiny 31 0xBF)

/-- Decode and encode agree: the bytes of a well-formed instruction's words, before any other bytes, decode to the
instruction and leave the other bytes, on every variant but AVRtiny for every instruction but the two one-word forms, and
on AVRtiny for every instruction but the LDD and STD words the one-word forms replace (30_encoding.md sections 2 to 4). -/
def Obligations.DecodeInvertsEncode : Prop :=
  (∀ (i : Instr) (rest : List Byte), i.wellFormed = true → i.isTinyForm = false →
    decodeBytes false (bytesOf (encode i) ++ rest) = .ok (i, rest)) ∧
  (∀ (i : Instr) (rest : List Byte), i.wellFormed = true →
    (i.isTinyForm = true ∨ i.firstWord.extractLsb' 12 4 ≠ 0b1010#4) →
    decodeBytes true (bytesOf (encode i) ++ rest) = .ok (i, rest))

/-- Every word is the first word of exactly the instruction it decodes to, a well-formed one, which takes the next word
exactly when the word's pattern says so (30_encoding.md sections 1 and 3). -/
def Obligations.EveryWordDecodes : Prop :=
  ∀ (tiny : Bool) (w w2 : Word), ∃ i, decodeWords tiny w w2 = .ok i ∧ i.wellFormed = true ∧ i.firstWord = w ∧
    i.secondWord = (if isTwoWord w then some w2 else none)

/-- One row of the opcode table holds a word, but for NOP and the four indirect jumps and calls, which lie in an unlisted
row too (30_encoding.md section 3). -/
def Obligations.OneRowPerWord : Prop :=
  ∀ w : Word, (opcodeTable.filter fun row => inRow row.mask row.value w).length =
    if w ∈ [0x0000#16, 0x9409#16, 0x9419#16, 0x9509#16, 0x9519#16] then 2 else 1

/-! ## The step -/

/-- A step runs the decoded instruction: where the words at the pc decode to a well-formed instruction of the variant and
no interrupt is taken, the step is that instruction, in the state after the platform's answer is taken and the interrupt
hold-off is over (30_encoding.md section 6). -/
def Obligations.StepRunsTheInstruction : Prop :=
  ∀ (s : State) (i : Instr) (w w2 : Word), FetchesNext s →
    s.boundary.1.progWord s.pc = .ok w →
    (isTwoWord w = true → s.boundary.1.progWord (s.pcPlus 1) = .ok w2) →
    decodeWords s.cfg.isTiny w w2 = .ok i → i.wellFormed = true → i.presentOn s.cfg = true →
    step s = exec i { s.boundary.1 with irqInhibit := false }

/-- What stops a fetch, in the order the spec gives: a pc outside program memory, a word of an instruction the variant
lacks, a second word outside program memory (60_exceptions.md section 1, 30_encoding.md section 6). -/
def Obligations.FetchStops : Prop :=
  ∀ s : State, FetchesNext s →
    (s.cfg.flashWords ≤ s.pc.toNat → step s = .fault (.fetchOutOfRange s.pc.toNat)) ∧
    (∀ w w2 i, s.progWord s.pc = .ok w → decodeWords s.cfg.isTiny w w2 = .ok i → i.presentOn s.cfg = false →
      step s = .fault (.reservedInstruction w)) ∧
    (∀ w w2 i, s.progWord s.pc = .ok w → decodeWords s.cfg.isTiny w w2 = .ok i → i.presentOn s.cfg = true →
      isTwoWord w = true → s.cfg.flashWords ≤ (s.pcPlus 1).toNat →
      step s = .fault (.fetchOutOfRange (s.pcPlus 1).toNat))

/-- A word the source reserves or does not list is no instruction: it decodes to a constructor whose meaning stops with
the word, and a step that fetches it stops with it (30_encoding.md section 4; D2). Which constructor holds which of those
words is the model's choice, log 14. -/
def Obligations.NoInstructionStops : Prop :=
  ∀ (s : State) (w : Word), isNoInstruction w = true →
    (∀ w2, ∃ i, decodeWords s.cfg.isTiny w w2 = .ok i ∧ exec i s = .fault (.reservedInstruction w) ∧
      i ∈ [.unlisted0000 w, .unlistedLd0011 w, .unlistedLd1000 w, .unlistedLd1011 w, .unlistedSt0011 w,
        .unlistedSt1000 w, .unlistedSt1011 w, .reserved9404 w, .reserved9528 w, .reserved9548 w, .reserved95b8 w,
        .unlisted94x9 w, .unlisted95xB w, .reservedF808 w]) ∧
    (FetchesNext s → s.progWord s.pc = .ok w → step s = .fault (.reservedInstruction w))

/-- An instruction the variant lacks stops with its first word, whatever the state; DES, BREAK, SPM and SPM Z+ end the run
under the names the spec gives where the variant has them (30_encoding.md section 4; 40_arithmetic.md section 8,
41_bit_and_others.md section 5, 42_transfer.md section 5). -/
def Obligations.AbsentAndUnmodelledStops : Prop :=
  (∀ (i : Instr) (s : State), i.presentOn s.cfg = false →
    exec i s = .fault (.reservedInstruction i.firstWord)) ∧
  ∀ s : State,
    (∀ k, s.cfg.hasDes = true → exec (.des k) s = .refused .unmodelledDes) ∧
    (s.cfg.hasBreak = true → exec .break_ s = .refused .unmodelledBreak) ∧
    (s.cfg.spmForm ≠ .absent → exec .spm s = .refused .unmodelledSpm) ∧
    (s.cfg.spmForm = .plainAndZinc → exec .spmZinc s = .refused .unmodelledSpm)

/-! ## Interrupts, sleep, reset, invariants -/

/-- Which interrupt is taken and what entry does: the lowest number among the sources presented, all of them pending
sources of the variant, with I = 1 and no hold-off; the core wakes, the pc is pushed, I is cleared (not on XMEGA), the pc
goes to the vector slot, the platform is told, and nothing else is saved or changed (60_exceptions.md section 2). An
entry whose push stops, stops with it. The model's choices in it: the vector address wraps modulo 2^PC_BITS (log 28), and
what is presented is cut to the pending sources of the variant and taken lowest number first (log 31). -/
def Obligations.InterruptEntry : Prop :=
  ∀ (s : State) (n : Nat), s.cfg.valid = true → s.irqInhibit = false →
    interruptFor s.boundary.1 s.boundary.2 = some n →
    (flagI s.sreg = true ∧ n ∈ s.boundary.2 ∧ (∀ m ∈ s.boundary.2, n ≤ m) ∧
      ∀ m ∈ s.boundary.2, m ∈ s.boundary.1.pending ∧ 1 ≤ m ∧ m ≤ s.cfg.nIrq) ∧
    (∀ u, ({ s.boundary.1 with sleeping := false } : State).pushPc s.pc = .ok u →
      ∃ t, step s = .next t ∧
        t.pc.toNat = (s.cfg.vectorBase + n * s.cfg.vectorStride) % 2 ^ s.cfg.pcBits ∧
        (∀ b, bitOf t.sreg b = (bitOf u.sreg b && (b ≠ 7 || s.cfg.isXmega))) ∧
        t = { u with pc := t.pc, sreg := t.sreg, trace := .irqTaken n :: u.trace } ∧ t.sleeping = false) ∧
    (∀ f, ({ s.boundary.1 with sleeping := false } : State).pushPc s.pc = .error f → step s = .fault f)

/-- Interrupts are taken at boundaries and nowhere else: a step that ends with a new `IrqTaken(n)` event started with I
set, no hold-off and `n` presented; no instruction raises that event (60_exceptions.md section 2). -/
def Obligations.InterruptsOnlyAtBoundaries : Prop :=
  (∀ (s t : State) (n : Nat), step s = .next t → s.trace.length < t.trace.length →
    t.trace.head? = some (.irqTaken n) →
    flagI s.sreg = true ∧ s.irqInhibit = false ∧ n ∈ s.boundary.2 ∧ t.pc = vectorAddr s.cfg n) ∧
  (∀ (i : Instr) (s t : State) (n : Nat), exec i s = .next t → s.trace.length < t.trace.length →
    t.trace.head? ≠ some (.irqTaken n))

/-- A sleeping core with no interrupt to take executes nothing (60_exceptions.md section 4): its step only takes the
platform's next answer. The spec has no step there; that there is one, and what it does, is the model's choice, log 16. An
interrupt that can be taken but is held off wakes the core. -/
def Obligations.SleepHolds : Prop :=
  ∀ s : State, s.sleeping = true →
    (interruptFor s.boundary.1 s.boundary.2 = none →
      ∃ t, step s = .next t ∧ t.inputs = s.inputs.tail ∧ t.sleeping = true ∧
        t = { s with inputs := t.inputs, pending := t.pending }) ∧
    (∀ n i w w2, interruptFor s.boundary.1 s.boundary.2 = some n → s.irqInhibit = true →
      s.progWord s.pc = .ok w → (isTwoWord w = true → s.progWord (s.pcPlus 1) = .ok w2) →
      decodeWords s.cfg.isTiny w w2 = .ok i → i.presentOn s.cfg = true →
      step s = exec i { s.boundary.1 with sleeping := false, irqInhibit := false })

/-- On a variant that is not XMEGA only SEI and RETI turn the interrupt hold-off on (60_exceptions.md section 2, the
hold-off). -/
def Obligations.HoldOffSources : Prop :=
  ∀ (i : Instr) (s t : State), s.cfg.isXmega = false → exec i s = .next t → s.irqInhibit = false →
    t.irqInhibit = true → i = .bset 7 ∨ i = .reti

/-- A quiescent state steps to itself, but for the platform's answers and the hold-off, and stays quiescent
(60_exceptions.md section 4; that a sleeping core makes a step is the model's choice, log 16; the premise on the pc is part
of the invariant every step keeps). -/
def Obligations.QuiescentStays : Prop :=
  ∀ s : State, s.pc.toNat < 2 ^ s.cfg.pcBits → s.cfg.pcBits ≤ 22 → s.Quiescent →
    ∃ t, step s = .next t ∧ t.Quiescent ∧
      t = { s with inputs := t.inputs, pending := t.pending, irqInhibit := t.irqInhibit }

/-- The invariant holds after reset of every variant. -/
def Obligations.ResetInvariant : Prop := ∀ c : Cfg, c.valid = true → (State.resetOf c).Inv = true

/-- Every step keeps the invariant: the pc, SP and the special registers in their widths, the memories in canonical form
within the addresses that exist, the hardware stack AVR1's and at most three deep (10_state.md sections 2, 4, 5, 8). -/
def Obligations.StepKeepsInvariant : Prop :=
  ∀ s t : State, s.Inv = true → step s = .next t → t.Inv = true

/-- No step changes program memory or the variant: a data write never reaches an instruction (20_memory.md section 8). -/
def Obligations.StepKeepsProgram : Prop :=
  ∀ s t : State, step s = .next t → t.cfg = s.cfg ∧ t.pm = s.pm

/-- What reset leaves on every variant (10_state.md section 9): the pc at RESET_PC, all flags clear, SP at SP_RESET, the
extended-address registers zero, the hardware stack empty, awake, no hold-off, nothing pending, and no byte of SRAM with
a value. The general registers read zero: the model's choice, log 2. -/
def Obligations.ResetValues : Prop :=
  ∀ c : Cfg, c.valid = true →
    (State.resetOf c).pc.toNat = c.resetPc ∧
    FlagsAre (State.resetOf c).sreg false false false false false false false false ∧
    (State.resetOf c).spVal.toNat = c.spReset ∧
    (∀ r, (State.resetOf c).ramp r = 0) ∧ (State.resetOf c).eindVal = 0 ∧
    (State.resetOf c).hwStack = [] ∧ (State.resetOf c).sleeping = false ∧ (State.resetOf c).irqInhibit = false ∧
    (State.resetOf c).pending = [] ∧
    (∀ addr, inRam c addr → (State.resetOf c).memRead addr = .error (.readOfUnspecified addr)) ∧
    (∀ d, (State.resetOf c).reg d = 0)

/-! ## Memory, I/O, stack, pointers -/

/-- The data address maps (20_memory.md section 2): the classic map; the XMEGA map, whose data flash at 0x1000 to 0x1FFF
the platform answers and whose SRAM begins at 0x2000; the AVRtiny map, whose SRAM begins at 0x40 and whose window on
program memory reads ProgByte and takes no store; AVR1, where every access above 95 stops. -/
def Obligations.DataAddressMaps : Prop :=
  ∀ (c : Cfg) (addr : DataAddr), c.valid = true →
    let a := addr.toNat
    (c.regsInDataSpace = true →
      (a ≤ 0x1F → ∃ d : Reg, d.toNat = a ∧ regionOf c addr = .register d) ∧
      (0x20 ≤ a → a ≤ 0x5F → ∃ io : BitVec 6, io.toNat = a - 0x20 ∧ regionOf c addr = .io io) ∧
      (0x60 ≤ a → a ≤ 0xFF → c.core ≠ .avr1 → c.hasExtIo = true → regionOf c addr = .extIo) ∧
      (0x60 ≤ a → (c.hasExtIo = false ∨ 0xFF < a) → c.ramStart ≤ a → a ≤ c.ramEnd → regionOf c addr = .ram) ∧
      (0x60 ≤ a → a ≤ 0xFF → c.core ≠ .avr1 → c.hasExtIo = false → (a < c.ramStart ∨ c.ramEnd < a) →
        nothingAt c addr)) ∧
    (c.xmegaMap = true →
      (a ≤ 0x3F → ∃ io : BitVec 6, io.toNat = a ∧ regionOf c addr = .io io) ∧
      (0x40 ≤ a → a ≤ 0x0FFF → regionOf c addr = .extIo) ∧
      (0x1000 ≤ a → a ≤ 0x1FFF → answeredByPlatform c addr = true) ∧
      (0x2000 ≤ a → a ≤ c.ramEnd → regionOf c addr = .ram)) ∧
    (c.core = .avrTiny →
      (a ≤ 0x3F → ∃ io : BitVec 6, io.toNat = a ∧ regionOf c addr = .io io) ∧
      (0x40 ≤ a → a ≤ c.ramEnd → regionOf c addr = .ram) ∧
      (∀ ba < 2 * c.flashWords, a = c.tinyFlashDataBase + ba → ¬ Storable c addr ∧
        ∀ s : State, s.cfg = c → ReadsAs s addr (s.pmByte ba))) ∧
    (c.core = .avr1 → 0x60 ≤ a → nothingAt c addr)

/-- A byte stored in SRAM reads back, and every other byte of data memory and every register reads as before
(20_memory.md section 3). -/
def Obligations.RamReadsBack : Prop :=
  ∀ (s : State) (addr : DataAddr) (v : Byte), inRam s.cfg addr →
    ∃ t, s.memWrite addr v = .ok t ∧ t.memRead addr = .ok (v, t) ∧
      (∀ a x, a ≠ addr → inRam s.cfg a → (t.memRead a = .ok (x, t) ↔ s.memRead a = .ok (x, s))) ∧
      RegsKept s t [] ∧ t = { s with dm := t.dm }

/-- The CPU's own I/O registers (10_state.md section 6; absent registers and bits read zero, D26, log 9): SREG whole, the
two halves of SP, the RAMP registers and EIND in their implemented bits. Reading one changes nothing. -/
def Obligations.CpuRegistersReadBack : Prop :=
  ∀ (s : State) (v : Byte), s.cfg.valid = true →
    ((s.ioWrite 0x3F v).ioRead 0x3F).1 = v ∧
    (s.cfg.stackKind = .dataSpace →
      ((s.ioWrite 0x3D v).ioRead 0x3D).1 = v ∧ ((s.ioWrite 0x3D v).ioRead 0x3E).1 = (s.ioRead 0x3E).1) ∧
    (s.cfg.stackKind = .dataSpace → s.cfg.spBits = 16 →
      ((s.ioWrite 0x3E v).ioRead 0x3E).1 = v ∧ ((s.ioWrite 0x3E v).ioRead 0x3D).1 = (s.ioRead 0x3D).1) ∧
    (s.cfg.stackKind = .dataSpace → s.cfg.spBits = 8 → ((s.ioWrite 0x3E v).ioRead 0x3E).1 = 0) ∧
    ((((s.ioWrite 0x3C v).ioRead 0x3C).1).toNat = if s.cfg.hasEind then v.toNat % 2 ^ s.cfg.eindBits else 0) ∧
    ((((s.ioWrite 0x3B v).ioRead 0x3B).1).toNat = if s.cfg.hasRampz then v.toNat % 2 ^ s.cfg.rampBits else 0) ∧
    ((((s.ioWrite 0x3A v).ioRead 0x3A).1).toNat = if s.cfg.hasRampy then v.toNat % 2 ^ s.cfg.rampBits else 0) ∧
    ((((s.ioWrite 0x39 v).ioRead 0x39).1).toNat = if s.cfg.hasRampx then v.toNat % 2 ^ s.cfg.rampBits else 0) ∧
    ((((s.ioWrite 0x38 v).ioRead 0x38).1).toNat = if s.cfg.hasRampd then v.toNat % 2 ^ s.cfg.rampBits else 0) ∧
    (∀ a : BitVec 6, 0x38 ≤ a.toNat → s.cfg.stackKind = .dataSpace → (s.ioRead a).2 = s)

/-- Push8 and Pop8 (20_memory.md section 6): a push stores at SP and then lowers SP, a pop raises SP and then reads at it,
both modulo 2^SP_BITS, both through the data memory's own dispatch and its stops. That SP after a push is SP before the
store less one even where the byte stored lands in SPL or SPH is the model's choice, log 10. -/
def Obligations.PushAndPopBytes : Prop :=
  ∀ (s : State) (v : Byte), s.cfg.valid = true →
    (Storable s.cfg (s.spVal.setWidth 24) →
      ∃ u t, ByteStored s u (s.spVal.setWidth 24) v ∧ s.push8 v = .ok t ∧ t = { u with sp := t.sp } ∧
        t.spVal.toNat = (s.spVal.toNat + 2 ^ s.cfg.spBits - 1) % 2 ^ s.cfg.spBits) ∧
    (¬ Storable s.cfg (s.spVal.setWidth 24) →
      s.push8 v = .error (.dataAccessOutOfRange (s.spVal.setWidth 24))) ∧
    (∃ u : State, u = { s with sp := u.sp } ∧ u.spVal.toNat = (s.spVal.toNat + 1) % 2 ^ s.cfg.spBits ∧
      (∀ x, ReadsAs u (u.spVal.setWidth 24) x →
        s.pop8 = .ok (x, { u with draws := drawsAfterRead u (u.spVal.setWidth 24) })) ∧
      (∀ f, ReadStops u (u.spVal.setWidth 24) f → s.pop8 = .error f))

/-- A return address on the data stack (20_memory.md section 6): two bytes, or three where the pc is wider than 16 bits,
the low byte at the highest address; PopPC gives it back and SP returns. On AVR1, the three-entry hardware stack, with
its two stops. -/
def Obligations.PushAndPopReturnAddress : Prop :=
  ∀ (s : State) (v : ProgAddr), s.cfg.valid = true → v.toNat < 2 ^ s.cfg.pcBits →
    (s.cfg.stackKind = .dataSpace → s.cfg.pcStackBytes ≤ s.spVal.toNat + 1 →
      (∀ k < s.cfg.pcStackBytes, inRam s.cfg (BitVec.ofNat 24 (s.spVal.toNat - k))) →
      ∃ t, s.pushPc v = .ok t ∧ t = { s with sp := t.sp, dm := t.dm } ∧
        t.spVal.toNat = (s.spVal.toNat + 2 ^ s.cfg.spBits - s.cfg.pcStackBytes) % 2 ^ s.cfg.spBits ∧
        (∀ k < s.cfg.pcStackBytes, Memory.read .data t.dm (s.spVal.toNat - k) =
          some (BitVec.ofNat 8 (v.toNat / 256 ^ k))) ∧
        (∀ a, (a + s.cfg.pcStackBytes ≤ s.spVal.toNat ∨ s.spVal.toNat < a) →
          Memory.read .data t.dm a = Memory.read .data s.dm a) ∧
        ∃ u, t.popPc = .ok (v, u) ∧ u.spVal = s.spVal ∧ u = { t with sp := u.sp }) ∧
    (s.cfg.stackKind = .hardware3 →
      (s.hwStack.length < 3 → ∃ t, s.pushPc v = .ok t ∧ t = { s with hwStack := v :: s.hwStack } ∧
        t.popPc = .ok (v, s)) ∧
      (3 ≤ s.hwStack.length → s.pushPc v = .error .hardwareStackOverflow) ∧
      (s.hwStack = [] → s.popPc = .error .hardwareStackUnderflow))

/-- The pointer helpers (42_transfer.md R265): PtrGet is the RAMP register before the pair, or the pair alone; PtrSet
writes the low 16 bits to the pair and, where it is present, the bits above them to the implemented bits of the pointer's
RAMP register, and nothing else, so that PtrGet gives a value of W bits back; sums are modulo 2^W,
W = 16 or 16 + RAMP_BITS; DataAddr keeps an address of DATA_ADDR_BITS bits. -/
def Obligations.PointerHelpers : Prop :=
  ∀ (s : State) (p : Ptr) (n v : DataAddr), s.cfg.valid = true →
    ((s.ptrGet p).toNat =
      (if p.ramp.present s.cfg then ((s.rampRaw p.ramp).toNat % 2 ^ s.cfg.rampBits) * 65536 else 0) +
        (s.reg (p.low + 1)).toNat * 256 + (s.reg p.low).toNat) ∧
    ((s.ptrSet p v).pair p.low).toNat = v.toNat % 65536 ∧
    (p.ramp.present s.cfg = true →
      ((s.ptrSet p v).rampRaw p.ramp).toNat = v.toNat / 65536 % 2 ^ s.cfg.rampBits) ∧
    (v.toNat < 2 ^ p.width s.cfg → (s.ptrSet p v).ptrGet p = v) ∧
    RegsKept s (s.ptrSet p v) [p.low, p.low + 1] ∧ SameMemory s (s.ptrSet p v) ∧
    (∀ r, (r = p.ramp → r.present s.cfg = false) → (s.ptrSet p v).rampRaw r = s.rampRaw r) ∧
    (s.ptrSet p v = { s with regs := (s.ptrSet p v).regs, rampd := (s.ptrSet p v).rampd,
                             rampx := (s.ptrSet p v).rampx, rampy := (s.ptrSet p v).rampy,
                             rampz := (s.ptrSet p v).rampz }) ∧
    (s.ptrPlus p n).toNat = ((s.ptrGet p).toNat + n.toNat) % 2 ^ p.width s.cfg ∧
    p.width s.cfg = (if p.ramp.present s.cfg then 16 + s.cfg.rampBits else 16) ∧
    (v.toNat < 2 ^ s.cfg.dataAddrBits → dataAddr s.cfg v = v)

/-- Program memory as words and as bytes (20_memory.md R84): ProgWord(wa) is the word program memory holds at wa, its low
byte at byte address 2·wa and its high byte at 2·wa + 1; ProgByte gives the one at the even byte address and the other at
the odd one; both stop at FLASH_WORDS. -/
def Obligations.ProgramBytes : Prop :=
  ∀ (s : State) (wa : ProgAddr) (ba : Nat),
    (wa.toNat < s.cfg.flashWords → ∃ lo hi : Byte,
      Memory.read .program s.pm (2 * wa.toNat) = some lo ∧ Memory.read .program s.pm (2 * wa.toNat + 1) = some hi ∧
      s.progWord wa = .ok (hi ++ lo) ∧
      s.progByte (2 * wa.toNat) = .ok lo ∧ s.progByte (2 * wa.toNat + 1) = .ok hi) ∧
    (ba / 2 < s.cfg.flashWords → ∃ b : Byte, Memory.read .program s.pm ba = some b ∧ s.progByte ba = .ok b) ∧
    (s.cfg.flashWords ≤ wa.toNat → s.progWord wa = .error (.fetchOutOfRange wa.toNat)) ∧
    (s.cfg.flashWords ≤ ba / 2 → s.progByte ba = .error (.fetchOutOfRange (ba / 2)))

/-- The pc advances modulo 2^PC_BITS (10_state.md section 2). -/
def Obligations.PcAdvance : Prop :=
  ∀ (s : State) (n : Nat), s.cfg.valid = true → (s.pcPlus n).toNat = (s.pc.toNat + n) % 2 ^ s.cfg.pcBits

/-- The three flag functions in the Boolean and in the arithmetic forms of 40_arithmetic.md R160. -/
def Obligations.FlagForms : Prop :=
  ∀ (sr a b : Byte) (c keepZ : Bool),
    (let r := add8 a b c
     let f := addFlags8 sr a b c
     SumOf sr f r a b c ∧
     flagH f = ((bitOf a 3 && bitOf b 3) || (bitOf b 3 && !bitOf r 3) || (!bitOf r 3 && bitOf a 3)) ∧
     flagC f = ((bitOf a 7 && bitOf b 7) || (bitOf b 7 && !bitOf r 7) || (!bitOf r 7 && bitOf a 7)) ∧
     flagV f = ((bitOf a 7 && bitOf b 7 && !bitOf r 7) || (!bitOf a 7 && !bitOf b 7 && bitOf r 7))) ∧
    (let r := sub8 a b c
     let f := subFlags8 sr a b c keepZ
     DifferenceOf sr f r a b c keepZ ∧
     flagH f = ((!bitOf a 3 && bitOf b 3) || (bitOf b 3 && bitOf r 3) || (bitOf r 3 && !bitOf a 3)) ∧
     flagC f = ((!bitOf a 7 && bitOf b 7) || (bitOf b 7 && bitOf r 7) || (bitOf r 7 && !bitOf a 7)) ∧
     flagV f = ((bitOf a 7 && !bitOf b 7 && !bitOf r 7) || (!bitOf a 7 && bitOf b 7 && bitOf r 7))) ∧
    LogicFlagsOf sr (logicFlags8 sr a) a

/-! ## Arithmetic and logic (40_arithmetic.md) -/

/-- ADD and ADC: the sum modulo 256 in Rd, H S V N Z C by integer arithmetic, I and T and everything else kept. -/
def Obligations.AddResults : Prop :=
  ∀ (d r : Reg) (s : State),
    ((Instr.add d r).presentOn s.cfg = true → ∃ t, exec (.add d r) s = .next t ∧ RegResult s t d ∧
      SumOf s.sreg t.sreg (t.reg d) (s.reg d) (s.reg r) false) ∧
    ((Instr.adc d r).presentOn s.cfg = true → ∃ t, exec (.adc d r) s = .next t ∧ RegResult s t d ∧
      SumOf s.sreg t.sreg (t.reg d) (s.reg d) (s.reg r) (flagC s.sreg))

/-- SUB, SUBI, SBC and SBCI: the difference modulo 256 in Rd, H S V N Z C by integer arithmetic; SBC and SBCI can only
clear Z; everything else kept. -/
def Obligations.SubtractResults : Prop :=
  ∀ (d r : Reg) (k : Byte) (s : State),
    ((Instr.sub d r).presentOn s.cfg = true → ∃ t, exec (.sub d r) s = .next t ∧ RegResult s t d ∧
      DifferenceOf s.sreg t.sreg (t.reg d) (s.reg d) (s.reg r) false false) ∧
    ((Instr.sbc d r).presentOn s.cfg = true → ∃ t, exec (.sbc d r) s = .next t ∧ RegResult s t d ∧
      DifferenceOf s.sreg t.sreg (t.reg d) (s.reg d) (s.reg r) (flagC s.sreg) true) ∧
    (∃ t, exec (.subi d k) s = .next t ∧ RegResult s t d ∧
      DifferenceOf s.sreg t.sreg (t.reg d) (s.reg d) k false false) ∧
    (∃ t, exec (.sbci d k) s = .next t ∧ RegResult s t d ∧
      DifferenceOf s.sreg t.sreg (t.reg d) (s.reg d) k (flagC s.sreg) true)

/-- CP, CPC and CPI: the flags of SUB, SBC and SUBI, and nothing else but the pc. -/
def Obligations.CompareResults : Prop :=
  ∀ (d r : Reg) (k : Byte) (s : State),
    ((Instr.cp d r).presentOn s.cfg = true → ∃ t x, exec (.cp d r) s = .next t ∧ OnlySregPc s t ∧
      t.pc = s.pcPlus 1 ∧ DifferenceOf s.sreg t.sreg x (s.reg d) (s.reg r) false false) ∧
    ((Instr.cpc d r).presentOn s.cfg = true → ∃ t x, exec (.cpc d r) s = .next t ∧ OnlySregPc s t ∧
      t.pc = s.pcPlus 1 ∧ DifferenceOf s.sreg t.sreg x (s.reg d) (s.reg r) (flagC s.sreg) true) ∧
    (∃ t x, exec (.cpi d k) s = .next t ∧ OnlySregPc s t ∧
      t.pc = s.pcPlus 1 ∧ DifferenceOf s.sreg t.sreg x (s.reg d) k false false)

/-- NEG and COM: the two's complement with the flags of 0 - Rd; the one's complement with C set, V cleared, H kept. -/
def Obligations.ComplementResults : Prop :=
  ∀ (d : Reg) (s : State),
    ((Instr.neg d).presentOn s.cfg = true → ∃ t, exec (.neg d) s = .next t ∧ RegResult s t d ∧
      DifferenceOf s.sreg t.sreg (t.reg d) 0 (s.reg d) false false ∧
      flagC t.sreg = decide (t.reg d ≠ 0) ∧ flagV t.sreg = decide (t.reg d = 0x80)) ∧
    ((Instr.com d).presentOn s.cfg = true → ∃ t, exec (.com d) s = .next t ∧ RegResult s t d ∧
      (t.reg d).toNat = 255 - (s.reg d).toNat ∧
      FlagsAre t.sreg (flagI s.sreg) (flagT s.sreg) (flagH s.sreg) (bitOf (t.reg d) 7) false (bitOf (t.reg d) 7)
        (decide ((s.reg d).toNat = 255)) true)

/-- AND, ANDI, OR, ORI and EOR, bit by bit, with V cleared, S and N the top bit, Z; H, C, T, I kept. -/
def Obligations.LogicResults : Prop :=
  ∀ (d r : Reg) (k : Byte) (s : State),
    ((Instr.and d r).presentOn s.cfg = true → ∃ t, exec (.and d r) s = .next t ∧ RegResult s t d ∧
      (∀ b, bitOf (t.reg d) b = (bitOf (s.reg d) b && bitOf (s.reg r) b)) ∧ LogicFlagsOf s.sreg t.sreg (t.reg d)) ∧
    ((Instr.or d r).presentOn s.cfg = true → ∃ t, exec (.or d r) s = .next t ∧ RegResult s t d ∧
      (∀ b, bitOf (t.reg d) b = (bitOf (s.reg d) b || bitOf (s.reg r) b)) ∧ LogicFlagsOf s.sreg t.sreg (t.reg d)) ∧
    ((Instr.eor d r).presentOn s.cfg = true → ∃ t, exec (.eor d r) s = .next t ∧ RegResult s t d ∧
      (∀ b, bitOf (t.reg d) b = (bitOf (s.reg d) b ^^ bitOf (s.reg r) b)) ∧ LogicFlagsOf s.sreg t.sreg (t.reg d)) ∧
    (∃ t, exec (.andi d k) s = .next t ∧ RegResult s t d ∧
      (∀ b, bitOf (t.reg d) b = (bitOf (s.reg d) b && bitOf k b)) ∧ LogicFlagsOf s.sreg t.sreg (t.reg d)) ∧
    (∃ t, exec (.ori d k) s = .next t ∧ RegResult s t d ∧
      (∀ b, bitOf (t.reg d) b = (bitOf (s.reg d) b || bitOf k b)) ∧ LogicFlagsOf s.sreg t.sreg (t.reg d))

/-- INC and DEC: one more, one less, modulo 256; S V N Z; C and H kept. -/
def Obligations.IncrementResults : Prop :=
  ∀ (d : Reg) (s : State),
    ((Instr.inc d).presentOn s.cfg = true → ∃ t, exec (.inc d) s = .next t ∧ RegResult s t d ∧
      (t.reg d).toNat = ((s.reg d).toNat + 1) % 256 ∧
      FlagsAre t.sreg (flagI s.sreg) (flagT s.sreg) (flagH s.sreg)
        (bitOf (t.reg d) 7 ^^ overflows8 ((s.reg d).toInt + 1)) (overflows8 ((s.reg d).toInt + 1))
        (bitOf (t.reg d) 7) (decide ((s.reg d).toNat = 255)) (flagC s.sreg)) ∧
    ((Instr.dec d).presentOn s.cfg = true → ∃ t, exec (.dec d) s = .next t ∧ RegResult s t d ∧
      (t.reg d).toNat = ((s.reg d).toNat + 255) % 256 ∧
      FlagsAre t.sreg (flagI s.sreg) (flagT s.sreg) (flagH s.sreg)
        (bitOf (t.reg d) 7 ^^ overflows8 ((s.reg d).toInt - 1)) (overflows8 ((s.reg d).toInt - 1))
        (bitOf (t.reg d) 7) (decide ((s.reg d).toNat = 1)) (flagC s.sreg))

/-- ADIW and SBIW: 16-bit sum and difference with a 6-bit constant, S V N Z C by integer arithmetic, H kept. -/
def Obligations.WordResults : Prop :=
  ∀ (d : Reg) (k : BitVec 6) (s : State), s.cfg.hasWordOps = true →
    (∃ t, exec (.adiw d k) s = .next t ∧ PairResult s t d ∧
      (t.pair d).toNat = ((s.pair d).toNat + k.toNat) % 65536 ∧
      FlagsAre t.sreg (flagI s.sreg) (flagT s.sreg) (flagH s.sreg)
        (decide (32768 ≤ (t.pair d).toNat) ^^ overflows16 ((s.pair d).toInt + k.toNat))
        (overflows16 ((s.pair d).toInt + k.toNat)) (decide (32768 ≤ (t.pair d).toNat))
        (decide ((t.pair d).toNat = 0)) (decide (65535 < (s.pair d).toNat + k.toNat))) ∧
    (∃ t, exec (.sbiw d k) s = .next t ∧ PairResult s t d ∧
      ((t.pair d).toNat : Int) = ((s.pair d).toNat - k.toNat : Int) % 65536 ∧
      FlagsAre t.sreg (flagI s.sreg) (flagT s.sreg) (flagH s.sreg)
        (decide (32768 ≤ (t.pair d).toNat) ^^ overflows16 ((s.pair d).toInt - k.toNat))
        (overflows16 ((s.pair d).toInt - k.toNat)) (decide (32768 ≤ (t.pair d).toNat))
        (decide ((t.pair d).toNat = 0)) (decide ((s.pair d).toNat < k.toNat)))

/-- MUL, MULS and MULSU: the exact product in R1:R0, C its bit 15, Z; the other flags kept. -/
def Obligations.ProductResults : Prop :=
  ∀ (d r : Reg) (s : State),
    ((Instr.mul d r).presentOn s.cfg = true → ∃ t, exec (.mul d r) s = .next t ∧ PairResult s t 0 ∧
      (t.pair 0).toNat = (s.reg d).toNat * (s.reg r).toNat ∧
      FlagsAre t.sreg (flagI s.sreg) (flagT s.sreg) (flagH s.sreg) (flagS s.sreg) (flagV s.sreg) (flagN s.sreg)
        (decide ((t.pair 0).toNat = 0)) (decide (32768 ≤ (t.pair 0).toNat))) ∧
    (s.cfg.hasMul = true → ∃ t, exec (.muls d r) s = .next t ∧ PairResult s t 0 ∧
      (t.pair 0).toInt = (s.reg d).toInt * (s.reg r).toInt ∧
      FlagsAre t.sreg (flagI s.sreg) (flagT s.sreg) (flagH s.sreg) (flagS s.sreg) (flagV s.sreg) (flagN s.sreg)
        (decide ((t.pair 0).toNat = 0)) (decide ((t.pair 0).toInt < 0))) ∧
    (s.cfg.hasMul = true → ∃ t, exec (.mulsu d r) s = .next t ∧ PairResult s t 0 ∧
      (t.pair 0).toInt = (s.reg d).toInt * ((s.reg r).toNat : Int) ∧
      FlagsAre t.sreg (flagI s.sreg) (flagT s.sreg) (flagH s.sreg) (flagS s.sreg) (flagV s.sreg) (flagN s.sreg)
        (decide ((t.pair 0).toNat = 0)) (decide ((t.pair 0).toInt < 0)))

/-- FMUL, FMULS and FMULSU: twice the product modulo 2^16 in R1:R0, C bit 15 of the product before the shift, Z of the
value written; the other flags kept. -/
def Obligations.FractionResults : Prop :=
  ∀ (d r : Reg) (s : State), s.cfg.hasMul = true →
    let result (i : Instr) (p : Int) : Prop :=
      ∃ t, exec i s = .next t ∧ PairResult s t 0 ∧ ((t.pair 0).toNat : Int) = (2 * p) % 65536 ∧
        FlagsAre t.sreg (flagI s.sreg) (flagT s.sreg) (flagH s.sreg) (flagS s.sreg) (flagV s.sreg) (flagN s.sreg)
          (decide ((t.pair 0).toNat = 0)) (decide (32768 ≤ p % 65536))
    result (.fmul d r) ((s.reg d).toNat * (s.reg r).toNat) ∧
    result (.fmuls d r) ((s.reg d).toInt * (s.reg r).toInt) ∧
    result (.fmulsu d r) ((s.reg d).toInt * (s.reg r).toNat)

/-- The alias LSL Rd is the word of ADD Rd,Rd (40_arithmetic.md R190), ROL Rd that of ADC Rd,Rd (R191): twice the register,
with the old C in bit 0 for ROL, C the bit shifted out, H bit 3, N bit 6, V = N xor C, S = N xor V, Z. -/
def Obligations.ShiftLeftAliases : Prop :=
  ∀ (d : Reg) (tiny : Bool) (w2 : Word) (s : State),
    decodeWords tiny (0b000011#6 ++ d.extractLsb' 4 1 ++ d ++ d.extractLsb' 0 4) w2 = .ok (.add d d) ∧
    decodeWords tiny (0b000111#6 ++ d.extractLsb' 4 1 ++ d ++ d.extractLsb' 0 4) w2 = .ok (.adc d d) ∧
    ((Instr.add d d).presentOn s.cfg = true → ∃ t, exec (.add d d) s = .next t ∧ RegResult s t d ∧
      (t.reg d).toNat = 2 * (s.reg d).toNat % 256 ∧
      FlagsAre t.sreg (flagI s.sreg) (flagT s.sreg) (bitOf (s.reg d) 3)
        (bitOf (s.reg d) 6 ^^ (bitOf (s.reg d) 7 ^^ bitOf (s.reg d) 6)) (bitOf (s.reg d) 7 ^^ bitOf (s.reg d) 6)
        (bitOf (s.reg d) 6) (decide ((t.reg d).toNat = 0)) (bitOf (s.reg d) 7)) ∧
    ((Instr.adc d d).presentOn s.cfg = true → ∃ t, exec (.adc d d) s = .next t ∧ RegResult s t d ∧
      (t.reg d).toNat = (2 * (s.reg d).toNat + (flagC s.sreg).toNat) % 256 ∧
      FlagsAre t.sreg (flagI s.sreg) (flagT s.sreg) (bitOf (s.reg d) 3)
        (bitOf (s.reg d) 6 ^^ (bitOf (s.reg d) 6 ^^ bitOf (s.reg d) 7)) (bitOf (s.reg d) 6 ^^ bitOf (s.reg d) 7)
        (bitOf (s.reg d) 6) (decide ((t.reg d).toNat = 0)) (bitOf (s.reg d) 7))

/-- The aliases TST Rd, CLR Rd and SER Rd (40_arithmetic.md R192, R193, R194): their words are those of AND Rd,Rd, EOR
Rd,Rd and LDI Rd,0xFF; TST keeps the register and writes S, V = 0, N, Z; CLR leaves 0x00 with S, V, N = 0 and Z = 1; SER
leaves 0xFF and no flag written. H and C are kept by all three. -/
def Obligations.TestClearSetAliases : Prop :=
  ∀ (d : Reg) (h : BitVec 4) (tiny : Bool) (w2 : Word) (s : State),
    decodeWords tiny (0b001000#6 ++ d.extractLsb' 4 1 ++ d ++ d.extractLsb' 0 4) w2 = .ok (.and d d) ∧
    decodeWords tiny (0b001001#6 ++ d.extractLsb' 4 1 ++ d ++ d.extractLsb' 0 4) w2 = .ok (.eor d d) ∧
    decodeWords tiny (0b11101111#8 ++ h ++ 0b1111#4) w2 = .ok (.ldi (1#1 ++ h) 0xFF) ∧
    ((Instr.and d d).presentOn s.cfg = true → ∃ t, exec (.and d d) s = .next t ∧ RegResult s t d ∧
      t.reg d = s.reg d ∧
      FlagsAre t.sreg (flagI s.sreg) (flagT s.sreg) (flagH s.sreg) (bitOf (s.reg d) 7) false (bitOf (s.reg d) 7)
        (decide (s.reg d = 0)) (flagC s.sreg)) ∧
    ((Instr.eor d d).presentOn s.cfg = true → ∃ t, exec (.eor d d) s = .next t ∧ RegResult s t d ∧
      t.reg d = 0 ∧
      FlagsAre t.sreg (flagI s.sreg) (flagT s.sreg) (flagH s.sreg) false false false true (flagC s.sreg)) ∧
    (∃ t, exec (.ldi (1#1 ++ h) 0xFF) s = .next t ∧ RegResult s t (1#1 ++ h) ∧ t.reg (1#1 ++ h) = 0xFF ∧
      t.sreg = s.sreg)

/-! ## Bits and others (41_bit_and_others.md) -/

/-- LSR, ROR, ASR and SWAP: half of the register, with 0, the old C or the old bit 7 on top, C the bit shifted out,
V = N xor C, S = N xor V, Z; SWAP exchanges the nibbles and writes no flag. -/
def Obligations.ShiftResults : Prop :=
  ∀ (d : Reg) (s : State),
    let odd := decide ((s.reg d).toNat % 2 = 1)
    ((Instr.lsr d).presentOn s.cfg = true → ∃ t, exec (.lsr d) s = .next t ∧ RegResult s t d ∧
      (t.reg d).toNat = (s.reg d).toNat / 2 ∧
      FlagsAre t.sreg (flagI s.sreg) (flagT s.sreg) (flagH s.sreg) odd odd false
        (decide ((t.reg d).toNat = 0)) odd) ∧
    ((Instr.ror d).presentOn s.cfg = true → ∃ t, exec (.ror d) s = .next t ∧ RegResult s t d ∧
      (t.reg d).toNat = (s.reg d).toNat / 2 + (if flagC s.sreg then 128 else 0) ∧
      FlagsAre t.sreg (flagI s.sreg) (flagT s.sreg) (flagH s.sreg) (flagC s.sreg ^^ (flagC s.sreg ^^ odd))
        (flagC s.sreg ^^ odd) (flagC s.sreg) (decide ((t.reg d).toNat = 0)) odd) ∧
    ((Instr.asr d).presentOn s.cfg = true → ∃ t, exec (.asr d) s = .next t ∧ RegResult s t d ∧
      (t.reg d).toInt = (s.reg d).toInt / 2 ∧
      FlagsAre t.sreg (flagI s.sreg) (flagT s.sreg) (flagH s.sreg) (bitOf (t.reg d) 7 ^^ (bitOf (t.reg d) 7 ^^ odd))
        (bitOf (t.reg d) 7 ^^ odd) (decide ((s.reg d).toInt < 0)) (decide ((t.reg d).toNat = 0)) odd) ∧
    ((Instr.swap d).presentOn s.cfg = true → ∃ t, exec (.swap d) s = .next t ∧ RegResult s t d ∧
      (t.reg d).toNat = (s.reg d).toNat % 16 * 16 + (s.reg d).toNat / 16 ∧ t.sreg = s.sreg)

/-- BSET and BCLR: the one bit of SREG; SEI (bit 7) starts the interrupt hold-off, BCLR does not touch it. -/
def Obligations.StatusBitResults : Prop :=
  ∀ (b : BitVec 3) (s : State),
    (∃ t, exec (.bset b) s = .next t ∧ (∀ x, bitOf t.sreg x = (x = b || bitOf s.sreg x)) ∧ SameMemory s t ∧
      t.pc = s.pcPlus 1 ∧ t = { s with sreg := t.sreg, pc := t.pc, irqInhibit := s.irqInhibit || b = 7 }) ∧
    (∃ t, exec (.bclr b) s = .next t ∧ (∀ x, bitOf t.sreg x = (x ≠ b && bitOf s.sreg x)) ∧ OnlySregPc s t ∧
      t.pc = s.pcPlus 1)

/-- BST and BLD: a register bit to T, T to a register bit; every other bit kept. -/
def Obligations.BitCopyResults : Prop :=
  ∀ (d : Reg) (b : BitVec 3) (s : State),
    ((Instr.bst d b).presentOn s.cfg = true → ∃ t, exec (.bst d b) s = .next t ∧ OnlySregPc s t ∧ t.pc = s.pcPlus 1 ∧
      ∀ x, bitOf t.sreg x = if x = 6 then bitOf (s.reg d) b else bitOf s.sreg x) ∧
    ((Instr.bld d b).presentOn s.cfg = true → ∃ t, exec (.bld d b) s = .next t ∧ RegResult s t d ∧ t.sreg = s.sreg ∧
      ∀ x, bitOf (t.reg d) x = if x = b then flagT s.sreg else bitOf (s.reg d) x)

/-- SBI and CBI: one read and one write of the platform's byte, the written byte the one read with its bit set or
cleared; no register, flag or memory byte changes. The byte read is the platform's free choice (20_memory.md R82). -/
def Obligations.IoBitResults : Prop :=
  ∀ (a : BitVec 5) (b : BitVec 3) (s : State),
    let addr : DataAddr := BitVec.ofNat 24 (s.cfg.ioBase + a.toNat)
    let v := Config.platformByte s.draws addr.toNat
    (∃ t x, exec (.sbi a b) s = .next t ∧ (∀ y, bitOf x y = (y = b || bitOf v y)) ∧ SameMemory s t ∧
      t.pc = s.pcPlus 1 ∧ t = { s with pc := t.pc, draws := s.draws + 1, trace := .write addr x :: s.trace }) ∧
    (∃ t x, exec (.cbi a b) s = .next t ∧ (∀ y, bitOf x y = (y ≠ b && bitOf v y)) ∧ SameMemory s t ∧
      t.pc = s.pcPlus 1 ∧ t = { s with pc := t.pc, draws := s.draws + 1, trace := .write addr x :: s.trace })

/-- NOP, SLEEP and WDR: nothing but the pc; the core asleep where the platform enables it; one watchdog event. -/
def Obligations.SystemResults : Prop :=
  ∀ s : State,
    (∃ t, exec .nop s = .next t ∧ OnlyPc s t ∧ t.pc = s.pcPlus 1) ∧
    (∃ t, exec .sleep s = .next t ∧ SameMemory s t ∧ t.pc = s.pcPlus 1 ∧
      t = { s with pc := t.pc, sleeping := s.sleeping || s.cfg.sleepEnabled }) ∧
    (∃ t, exec .wdr s = .next t ∧ SameMemory s t ∧ t.pc = s.pcPlus 1 ∧
      t = { s with pc := t.pc, trace := .watchdogReset :: s.trace })

/-! ## Data transfer (42_transfer.md) -/

/-- MOV, MOVW and LDI: a register, a pair, a constant; no flag. -/
def Obligations.MoveResults : Prop :=
  ∀ (d r : Reg) (k : Byte) (s : State),
    ((Instr.mov d r).presentOn s.cfg = true → ∃ t, exec (.mov d r) s = .next t ∧ RegResult s t d ∧
      t.reg d = s.reg r ∧ t.sreg = s.sreg) ∧
    (s.cfg.hasMovw = true → ∃ t, exec (.movw d r) s = .next t ∧ PairResult s t d ∧
      t.reg d = s.reg r ∧ t.reg (d + 1) = s.reg (r + 1) ∧ t.sreg = s.sreg) ∧
    (∃ t, exec (.ldi d k) s = .next t ∧ RegResult s t d ∧ t.reg d = k ∧ t.sreg = s.sreg)

/-- LDS in both forms: Rd takes the byte the direct address reads as, the pc passes the instruction's words, nothing else
changes; a read that stops, stops the instruction. -/
def Obligations.DirectLoads : Prop :=
  (∀ (d : Reg) (k : BitVec 16) (s : State), (Instr.lds d k).presentOn s.cfg = true →
    let ea := dataAddr s.cfg (s.ramp .d ++ k)
    (∀ v, ReadsAs s ea v → ∃ t, exec (.lds d k) s = .next t ∧ Loaded s t d ea v ∧ t.pc = s.pcPlus 2) ∧
    (∀ f, ReadStops s ea f → exec (.lds d k) s = .fault f)) ∧
  (∀ (d : Reg) (k : Byte) (s : State), (Instr.ldsTiny d k).presentOn s.cfg = true →
    let ea := dataAddr s.cfg (k.setWidth 24)
    (∀ v, ReadsAs s ea v → ∃ t, exec (.ldsTiny d k) s = .next t ∧ Loaded s t d ea v ∧ t.pc = s.pcPlus 1) ∧
    (∀ f, ReadStops s ea f → exec (.ldsTiny d k) s = .fault f))

/-- STS in both forms: the byte of Rd goes to the direct address, every other byte of memory reads as before, and what the
address reaches is all that changes beside the pc; an address with nowhere to store stops the instruction. -/
def Obligations.DirectStores : Prop :=
  (∀ (d : Reg) (k : BitVec 16) (s : State), (Instr.sts d k).presentOn s.cfg = true →
    let ea := dataAddr s.cfg (s.ramp .d ++ k)
    (Storable s.cfg ea → ∃ u, ByteStored s u ea (s.reg d) ∧
      exec (.sts d k) s = .next { u with pc := s.pcPlus 2 }) ∧
    (¬ Storable s.cfg ea → exec (.sts d k) s = .fault (.dataAccessOutOfRange ea))) ∧
  (∀ (d : Reg) (k : Byte) (s : State), (Instr.stsTiny d k).presentOn s.cfg = true →
    let ea := dataAddr s.cfg (k.setWidth 24)
    (Storable s.cfg ea → ∃ u, ByteStored s u ea (s.reg d) ∧
      exec (.stsTiny d k) s = .next { u with pc := s.pcPlus 1 }) ∧
    (¬ Storable s.cfg ea → exec (.stsTiny d k) s = .fault (.dataAccessOutOfRange ea)))

/-- LDD Rd,Z+q, LDD Rd,Y+q and LD Rd,X: Rd takes the byte at the pointer (plus q, modulo 2^W); the pointer is not written
unless Rd is one of its halves; a read that stops, stops the instruction. -/
def Obligations.IndirectLoads : Prop :=
  ∀ (d : Reg) (q : BitVec 6) (s : State),
    let result (i : Instr) (ea : DataAddr) : Prop := i.presentOn s.cfg = true →
      (∀ v, ReadsAs s ea v → ∃ t, exec i s = .next t ∧ Loaded s t d ea v ∧ t.pc = s.pcPlus 1) ∧
      (∀ f, ReadStops s ea f → exec i s = .fault f)
    result (.lddZ d q) (dataAddr s.cfg (s.ptrPlus .z (q.setWidth 24))) ∧
    result (.lddY d q) (dataAddr s.cfg (s.ptrPlus .y (q.setWidth 24))) ∧
    result (.ldX d) (dataAddr s.cfg (s.ptrGet .x))

/-- STD Z+q,Rr, STD Y+q,Rr and ST X,Rr: the byte of the register goes to the pointer's address (plus q, modulo 2^W); every
other byte of memory reads as before; an address with nowhere to store stops the instruction. -/
def Obligations.IndirectStores : Prop :=
  ∀ (d : Reg) (q : BitVec 6) (s : State),
    let result (i : Instr) (ea : DataAddr) : Prop := i.presentOn s.cfg = true →
      (Storable s.cfg ea → ∃ u, ByteStored s u ea (s.reg d) ∧ exec i s = .next { u with pc := s.pcPlus 1 }) ∧
      (¬ Storable s.cfg ea → exec i s = .fault (.dataAccessOutOfRange ea))
    result (.stdZ d q) (dataAddr s.cfg (s.ptrPlus .z (q.setWidth 24))) ∧
    result (.stdY d q) (dataAddr s.cfg (s.ptrPlus .y (q.setWidth 24))) ∧
    result (.stX d) (dataAddr s.cfg (s.ptrGet .x))

/-- The six LD forms that update X, Y or Z: post-increment reads at the old pointer, pre-decrement at the new one; Rd takes
the byte, the pointer (with its RAMP register, where there is one) steps by one modulo 2^W, nothing else changes; a read
that stops, stops the instruction. -/
def Obligations.UpdatingLoads : Prop :=
  ∀ (p : Ptr) (inc : Bool) (d : Reg) (s : State), (updatingLoad inc p d).presentOn s.cfg = true →
    d ≠ p.low → d ≠ p.low + 1 →
    let next := if inc then s.ptrPlus p 1 else s.ptrPlus p (-1)
    let ea := dataAddr s.cfg (if inc then s.ptrGet p else next)
    (∀ v, ReadsAs s ea v → ∃ t, exec (updatingLoad inc p d) s = .next t ∧ t.reg d = v ∧ t.ptrGet p = next ∧
      RegsKept s t [d, p.low, p.low + 1] ∧ (∀ r, r ≠ p.ramp → t.rampRaw r = s.rampRaw r) ∧ SameMemory s t ∧
      t.pc = s.pcPlus 1 ∧
      t = { s with regs := t.regs, pc := t.pc, rampd := t.rampd, rampx := t.rampx, rampy := t.rampy,
                   rampz := t.rampz, draws := drawsAfterRead s ea }) ∧
    (∀ f, ReadStops s ea f → exec (updatingLoad inc p d) s = .fault f)

/-- The six ST forms that update X, Y or Z: post-increment stores at the old pointer and then steps it, pre-decrement steps
the pointer and then stores at the new one; the byte is the register's old value; every other byte of memory reads as
before; an address with nowhere to store stops the instruction. -/
def Obligations.UpdatingStores : Prop :=
  ∀ (p : Ptr) (inc : Bool) (d : Reg) (s : State), (updatingStore inc p d).presentOn s.cfg = true →
    d ≠ p.low → d ≠ p.low + 1 →
    let next := if inc then s.ptrPlus p 1 else s.ptrPlus p (-1)
    let ea := dataAddr s.cfg (if inc then s.ptrGet p else next)
    (Storable s.cfg ea → ∃ u t, exec (updatingStore inc p d) s = .next t ∧
      (if inc then ByteStored s u ea (s.reg d) ∧ t = { u.ptrSet p next with pc := s.pcPlus 1 }
        else ByteStored (s.ptrSet p next) u ea (s.reg d) ∧ t = { u with pc := s.pcPlus 1 }) ∧
      (∀ a, a ≠ ea.toNat → Memory.read .data t.dm a = Memory.read .data s.dm a) ∧ (∀ a, t.pmByte a = s.pmByte a)) ∧
    (¬ Storable s.cfg ea → exec (updatingStore inc p d) s = .fault (.dataAccessOutOfRange ea))

/-- A load or store that updates the pointer whose half is its data register, and LPM and ELPM Rd,Z+ with Rd = R30 or R31,
stop with `UndefinedOperands` (42_transfer.md section 4). -/
def Obligations.PointerHalfStops : Prop :=
  ∀ (p : Ptr) (inc : Bool) (d : Reg) (s : State),
    (d = p.low ∨ d = p.low + 1 →
      ((updatingLoad inc p d).presentOn s.cfg = true →
        exec (updatingLoad inc p d) s = .fault (.undefinedOperands (updatingLoad inc p d).firstWord)) ∧
      ((updatingStore inc p d).presentOn s.cfg = true →
        exec (updatingStore inc p d) s = .fault (.undefinedOperands (updatingStore inc p d).firstWord))) ∧
    (d = 30 ∨ d = 31 →
      ((Instr.lpmRdZinc d).presentOn s.cfg = true →
        exec (.lpmRdZinc d) s = .fault (.undefinedOperands (Instr.lpmRdZinc d).firstWord)) ∧
      ((Instr.elpmRdZinc d).presentOn s.cfg = true →
        exec (.elpmRdZinc d) s = .fault (.undefinedOperands (Instr.elpmRdZinc d).firstWord)))

/-- LPM, LPM Rd,Z and LPM Rd,Z+: the byte of program memory at Z, Z stepped modulo 2^16 by the third, RAMPZ untouched; a
byte address outside program memory stops. -/
def Obligations.ProgramLoads : Prop :=
  ∀ (d : Reg) (s : State),
    let z := (s.pair 30).toNat
    let loads (i : Instr) (x : Reg) : Prop := i.presentOn s.cfg = true →
      (z / 2 < s.cfg.flashWords →
        ∃ t, exec i s = .next t ∧ RegResult s t x ∧ t.reg x = s.pmByte z ∧ t.sreg = s.sreg) ∧
      (s.cfg.flashWords ≤ z / 2 → exec i s = .fault (.fetchOutOfRange (z / 2)))
    loads .lpm 0 ∧ loads (.lpmRdZ d) d ∧
    ((Instr.lpmRdZinc d).presentOn s.cfg = true → d ≠ 30 → d ≠ 31 →
      (z / 2 < s.cfg.flashWords → ∃ t, exec (.lpmRdZinc d) s = .next t ∧ OnlyRegsSregPc s t ∧
        RegsKept s t [d, 30, 31] ∧ t.reg d = s.pmByte z ∧ (t.pair 30).toNat = (z + 1) % 65536 ∧
        t.sreg = s.sreg ∧ t.pc = s.pcPlus 1) ∧
      (s.cfg.flashWords ≤ z / 2 → exec (.lpmRdZinc d) s = .fault (.fetchOutOfRange (z / 2))))

/-- ELPM, ELPM Rd,Z and ELPM Rd,Z+: the byte of program memory at RAMPZ:Z, the whole address stepped by the third; a byte
address outside program memory stops. -/
def Obligations.ExtendedProgramLoads : Prop :=
  ∀ (d : Reg) (s : State), s.cfg.hasRampz = true →
    let z := (s.ramp .z).toNat * 65536 + (s.pair 30).toNat
    let loads (i : Instr) (x : Reg) : Prop := i.presentOn s.cfg = true →
      (z / 2 < s.cfg.flashWords →
        ∃ t, exec i s = .next t ∧ RegResult s t x ∧ t.reg x = s.pmByte z ∧ t.sreg = s.sreg) ∧
      (s.cfg.flashWords ≤ z / 2 → exec i s = .fault (.fetchOutOfRange (z / 2)))
    loads .elpm 0 ∧ loads (.elpmRdZ d) d ∧
    ((Instr.elpmRdZinc d).presentOn s.cfg = true → d ≠ 30 → d ≠ 31 → s.cfg.rampBits ≤ 8 →
      (z / 2 < s.cfg.flashWords → ∃ t, exec (.elpmRdZinc d) s = .next t ∧ SameMemory s t ∧
        RegsKept s t [d, 30, 31] ∧ t.reg d = s.pmByte z ∧
        (t.ramp .z).toNat * 65536 + (t.pair 30).toNat = (z + 1) % 2 ^ (16 + s.cfg.rampBits) ∧
        t.pc = s.pcPlus 1 ∧ t = { s with regs := t.regs, pc := t.pc, rampz := t.rampz }) ∧
      (s.cfg.flashWords ≤ z / 2 → exec (.elpmRdZinc d) s = .fault (.fetchOutOfRange (z / 2))))

/-- IN and OUT: Rd takes the byte the I/O address reads as; the byte of Rr goes to the I/O address; nothing else changes
but the pc. -/
def Obligations.InOutResults : Prop :=
  ∀ (d : Reg) (a : BitVec 6) (s : State),
    let addr : DataAddr := BitVec.ofNat 24 (s.cfg.ioBase + a.toNat)
    ((Instr.in_ d a).presentOn s.cfg = true → ∃ t v, exec (.in_ d a) s = .next t ∧ ReadsAs s addr v ∧
      Loaded s t d addr v ∧ t.pc = s.pcPlus 1) ∧
    ((Instr.out d a).presentOn s.cfg = true → ∃ u, ByteStored s u addr (s.reg d) ∧
      exec (.out d a) s = .next { u with pc := s.pcPlus 1 })

/-- PUSH and POP: the byte of Rr at SP, SP lowered; Rd the byte at the raised SP; nothing else changes but what the address
reaches and the pc; an address with nothing behind it stops. That SP after PUSH is SP before the store less one even where
the byte stored lands in SPL or SPH is the model's choice, log 10. -/
def Obligations.PushPopResults : Prop :=
  ∀ (d : Reg) (s : State),
    ((Instr.push d).presentOn s.cfg = true →
      let addr : DataAddr := s.spVal.setWidth 24
      (Storable s.cfg addr → ∃ u, ByteStored s u addr (s.reg d) ∧
        exec (.push d) s = .next { u with sp := lowBits s.cfg.spBits (s.spVal - 1), pc := s.pcPlus 1 }) ∧
      (¬ Storable s.cfg addr → exec (.push d) s = .fault (.dataAccessOutOfRange addr))) ∧
    ((Instr.pop d).presentOn s.cfg = true →
      let u : State := { s with sp := lowBits s.cfg.spBits (s.spVal + 1) }
      let addr : DataAddr := u.spVal.setWidth 24
      (∀ v, ReadsAs u addr v → ∃ t, exec (.pop d) s = .next t ∧ Loaded u t d addr v ∧ t.pc = s.pcPlus 1) ∧
      (∀ f, ReadStops u addr f → exec (.pop d) s = .fault f))

/-- XCH, LAS, LAC and LAT: Rd takes the old byte at Z, memory takes Rd, or the old byte with the bits of Rd set, cleared
or inverted; Z is not changed unless Rd is one of its halves; every other byte of memory reads as before; an address that
does not read, or where nothing can be stored, stops. -/
def Obligations.AtomicResults : Prop :=
  ∀ (d : Reg) (s : State),
    let ea := dataAddr s.cfg (s.ptrGet .z)
    let r : State := { s with draws := drawsAfterRead s ea }
    let result (i : Instr) (new : Byte → Byte) : Prop := i.presentOn s.cfg = true →
      (∀ old, ReadsAs s ea old → Storable s.cfg ea → ∃ u t, ByteStored r u ea (new old) ∧ exec i s = .next t ∧
        t.reg d = old ∧ RegsKept u t [d] ∧ t = { u with regs := t.regs, pc := s.pcPlus 1 }) ∧
      (∀ old, ReadsAs s ea old → ¬ Storable s.cfg ea → exec i s = .fault (.dataAccessOutOfRange ea)) ∧
      (∀ f, ReadStops s ea f → exec i s = .fault f)
    result (.xch d) (fun _ => s.reg d) ∧
    result (.las d) (fun old => old ||| s.reg d) ∧
    result (.lac d) (fun old => old &&& ~~~ s.reg d) ∧
    result (.lat d) (fun old => old ^^^ s.reg d)

/-! ## Jumps, calls, branches (43_jump.md, 44_call.md, 45_branch.md) -/

/-- RJMP, IJMP, EIJMP and JMP: the pc takes the target modulo 2^PC_BITS, nothing else changes. -/
def Obligations.JumpResults : Prop :=
  ∀ (k : BitVec 12) (l : BitVec 22) (s : State), s.cfg.valid = true →
    (∃ t, exec (.rjmp k) s = .next t ∧ OnlyPc s t ∧
      (t.pc.toNat : Int) = (s.pc.toNat + 1 + k.toInt) % 2 ^ s.cfg.pcBits) ∧
    (s.cfg.hasIjmpIcall = true → ∃ t, exec .ijmp s = .next t ∧ OnlyPc s t ∧
      t.pc.toNat = (s.pair 30).toNat % 2 ^ s.cfg.pcBits) ∧
    (s.cfg.hasEind = true → ∃ t, exec .eijmp s = .next t ∧ OnlyPc s t ∧
      t.pc.toNat = (s.eindVal.toNat * 65536 + (s.pair 30).toNat) % 2 ^ s.cfg.pcBits) ∧
    (s.cfg.hasJmpCall = true → ∃ t, exec (.jmp l) s = .next t ∧ OnlyPc s t ∧
      t.pc.toNat = l.toNat % 2 ^ s.cfg.pcBits)

/-- RCALL, ICALL, EICALL and CALL: the address after the call is pushed, then the pc takes the target, computed from the
state before the push; nothing else changes than by the push; a push that stops, stops the call. -/
def Obligations.CallResults : Prop :=
  ∀ (k : BitVec 12) (l : BitVec 22) (s : State), s.cfg.valid = true →
    let result (i : Instr) (n : Nat) (target : Int) : Prop :=
      (∀ u, s.pushPc (s.pcPlus n) = .ok u → ∃ t, exec i s = .next t ∧ t = { u with pc := t.pc } ∧
        (t.pc.toNat : Int) = target % 2 ^ s.cfg.pcBits) ∧
      (∀ f, s.pushPc (s.pcPlus n) = .error f → exec i s = .fault f)
    result (.rcall k) 1 (s.pc.toNat + 1 + k.toInt) ∧
    (s.cfg.hasIjmpIcall = true → result .icall 1 (s.pair 30).toNat) ∧
    (s.cfg.hasEind = true → result .eicall 1 (s.eindVal.toNat * 65536 + (s.pair 30).toNat)) ∧
    (s.cfg.hasJmpCall = true → result (.call l) 2 l.toNat)

/-- RET and RETI: the pc takes the popped address; RETI also sets I, or on XMEGA tells the platform, and starts the
interrupt hold-off; nothing else changes than by the pop; a pop that stops, stops the return. -/
def Obligations.ReturnResults : Prop :=
  ∀ s : State,
    (∀ v u, s.popPc = .ok (v, u) →
      exec .ret s = .next { u with pc := v } ∧
      ∃ t, exec .reti s = .next t ∧ (∀ b, bitOf t.sreg b = (bitOf u.sreg b || (b = 7 && !s.cfg.isXmega))) ∧
        t = { u with pc := v, sreg := t.sreg, irqInhibit := true,
                     trace := if s.cfg.isXmega then .handlerEnded :: u.trace else u.trace }) ∧
    (∀ f, s.popPc = .error f → exec .ret s = .fault f ∧ exec .reti s = .fault f)

/-- CPSE, SBRC, SBRS, SBIC and SBIS: the next instruction is passed over, whatever its length, exactly when the registers
are equal or the bit has the value; nothing but the pc changes (and, for SBIC and SBIS, one platform byte is drawn). -/
def Obligations.SkipResults : Prop :=
  ∀ (d r : Reg) (a : BitVec 5) (b : BitVec 3) (s : State),
    let x := Config.platformByte s.draws (s.cfg.ioBase + a.toNat)
    let drawn : State := { s with draws := s.draws + 1 }
    ((Instr.cpse d r).presentOn s.cfg = true → SkipEffect (.cpse d r) s s (decide (s.reg d = s.reg r))) ∧
    ((Instr.sbrc d b).presentOn s.cfg = true → SkipEffect (.sbrc d b) s s (!bitOf (s.reg d) b)) ∧
    ((Instr.sbrs d b).presentOn s.cfg = true → SkipEffect (.sbrs d b) s s (bitOf (s.reg d) b)) ∧
    SkipEffect (.sbic a b) s drawn (!bitOf x b) ∧
    SkipEffect (.sbis a b) s drawn (bitOf x b)

/-- BRBS and BRBC: the pc takes pc + 1 + k modulo 2^PC_BITS when the flag is set (clear), else the next word; nothing else
changes. -/
def Obligations.BranchResults : Prop :=
  ∀ (b : BitVec 3) (k : BitVec 7) (s : State), s.cfg.valid = true →
    (∃ t, exec (.brbs b k) s = .next t ∧ OnlyPc s t ∧ (t.pc.toNat : Int) =
      (if bitOf s.sreg b then (s.pc.toNat : Int) + 1 + k.toInt else s.pc.toNat + 1) % 2 ^ s.cfg.pcBits) ∧
    (∃ t, exec (.brbc b k) s = .next t ∧ OnlyPc s t ∧ (t.pc.toNat : Int) =
      (if bitOf s.sreg b then (s.pc.toNat : Int) + 1 else s.pc.toNat + 1 + k.toInt) % 2 ^ s.cfg.pcBits)
end

