-- ==== Sys2Proof/Laws/Flags.lean ====
section
/-! SUPPORT. Reading a flag back from the status bytes the flag functions build. -/

namespace Sys2Proof.Machine

section
variable (i t h s v n z c : Bool)

@[simp] theorem flagI_packSreg : flagI (packSreg i t h s v n z c) = i := by
  revert i t h s v n z c; decide +kernel
@[simp] theorem flagT_packSreg : flagT (packSreg i t h s v n z c) = t := by
  revert i t h s v n z c; decide +kernel
@[simp] theorem flagH_packSreg : flagH (packSreg i t h s v n z c) = h := by
  revert i t h s v n z c; decide +kernel
@[simp] theorem flagS_packSreg : flagS (packSreg i t h s v n z c) = s := by
  revert i t h s v n z c; decide +kernel
@[simp] theorem flagV_packSreg : flagV (packSreg i t h s v n z c) = v := by
  revert i t h s v n z c; decide +kernel
@[simp] theorem flagN_packSreg : flagN (packSreg i t h s v n z c) = n := by
  revert i t h s v n z c; decide +kernel
@[simp] theorem flagZ_packSreg : flagZ (packSreg i t h s v n z c) = z := by
  revert i t h s v n z c; decide +kernel
@[simp] theorem flagC_packSreg : flagC (packSreg i t h s v n z c) = c := by
  revert i t h s v n z c; decide +kernel

end

/-- A status byte is the pack of its flags. -/
theorem packSreg_flags (sr : Byte) :
    packSreg (flagI sr) (flagT sr) (flagH sr) (flagS sr) (flagV sr) (flagN sr) (flagZ sr) (flagC sr) = sr := by
  revert sr; decide +kernel

/-- A bit of a byte with one bit replaced. -/
theorem bitOf_withBit (v : Byte) (b b' : BitVec 3) (x : Bool) :
    bitOf (withBit v b x) b' = if b' = b then x else bitOf v b' := by
  revert x; revert v b b'; unfold bitOf withBit; decide +kernel

end Sys2Proof.Machine
end

