-- ==== Sys2Proof/Laws/Memory.lean ====
section
/-! SUPPORT. The laws of the sparse memory: a read after a write, and the canonical form every operation keeps. -/

namespace Sys2Proof.Machine

/-- Addresses strictly rising, as a proposition on the keys. -/
theorem Memory.wf_iff (sp : Space) (m : Memory) :
    Memory.wf sp m = true ↔
      m.Pairwise (fun c c' => c.1 < c'.1) ∧ ∀ c ∈ m, unlistedByte sp ≠ some c.2 := by
  simp [Memory.wf]

theorem Memory.lookup_insert_same (m : Memory) (a : Nat) (b : Byte) : (m.insert a b).lookup a = some b := by
  induction m with
  | nil => simp [Memory.insert, Memory.lookup]
  | cons c rest ih =>
    obtain ⟨k, x⟩ := c
    unfold Memory.insert
    split
    · simp [Memory.lookup]
    · split
      · simp [Memory.lookup]
      · rename_i h1 h2
        simp [Memory.lookup, ih, Ne.symm h2]

theorem Memory.lookup_insert_other (m : Memory) {a a' : Nat} (b : Byte) (h : a' ≠ a) :
    (m.insert a b).lookup a' = m.lookup a' := by
  induction m with
  | nil => simp [Memory.insert, Memory.lookup, Ne.symm h]
  | cons c rest ih =>
    obtain ⟨k, x⟩ := c
    unfold Memory.insert
    split
    · simp [Memory.lookup, Ne.symm h]
    · split
      · rename_i h2; subst h2; simp [Memory.lookup, Ne.symm h]
      · simp [Memory.lookup, ih]

theorem Memory.lookup_erase_same (m : Memory) (a : Nat) : (m.erase a).lookup a = none := by
  induction m with
  | nil => rfl
  | cons c rest ih =>
    obtain ⟨k, x⟩ := c
    by_cases h : k = a
    · subst h; simpa [Memory.erase] using ih
    · have : Memory.erase ((k, x) :: rest) a = (k, x) :: Memory.erase rest a := by simp [Memory.erase, h]
      rw [this]; simp [Memory.lookup, h, ih]

theorem Memory.lookup_erase_other (m : Memory) {a a' : Nat} (h : a' ≠ a) : (m.erase a).lookup a' = m.lookup a' := by
  induction m with
  | nil => rfl
  | cons c rest ih =>
    obtain ⟨k, x⟩ := c
    by_cases hk : k = a
    · subst hk
      have : Memory.erase ((k, x) :: rest) k = Memory.erase rest k := by simp [Memory.erase]
      rw [this, ih]; simp [Memory.lookup, Ne.symm h]
    · have : Memory.erase ((k, x) :: rest) a = (k, x) :: Memory.erase rest a := by simp [Memory.erase, hk]
      rw [this]; simp [Memory.lookup, ih]

/-- A byte reads as it was last written. -/
@[simp] theorem Memory.read_write_same (sp : Space) (m : Memory) (a : Nat) (b : Byte) :
    Memory.read sp (Memory.write sp m a b) a = some b := by
  unfold Memory.read Memory.write
  by_cases h : unlistedByte sp = some b
  · simp [h, Memory.lookup_erase_same]
  · simp [h, Memory.lookup_insert_same]

/-- A write leaves every other byte. -/
theorem Memory.read_write_other (sp : Space) (m : Memory) {a a' : Nat} (b : Byte) (h : a' ≠ a) :
    Memory.read sp (Memory.write sp m a b) a' = Memory.read sp m a' := by
  unfold Memory.read Memory.write
  by_cases hb : unlistedByte sp = some b
  · simp [hb, Memory.lookup_erase_other m h]
  · simp [hb, Memory.lookup_insert_other m b h]

theorem Memory.mem_insert {m : Memory} {a : Nat} {b : Byte} {c : Host.Cell} (h : c ∈ m.insert a b) :
    c = (a, b) ∨ c ∈ m := by
  induction m with
  | nil => simpa [Memory.insert] using h
  | cons d rest ih =>
    obtain ⟨k, x⟩ := d
    unfold Memory.insert at h
    split at h
    · simpa using h
    · split at h
      · rename_i h2; simp at h; rcases h with h | h
        · exact .inl h
        · exact .inr (List.mem_cons_of_mem _ h)
      · simp at h; rcases h with h | h
        · exact .inr (by simp [h])
        · rcases ih h with h | h
          · exact .inl h
          · exact .inr (List.mem_cons_of_mem _ h)

theorem Memory.insert_pairwise (m : Memory) (a : Nat) (b : Byte)
    (h : m.Pairwise (fun c c' : Host.Cell => c.1 < c'.1)) :
    (m.insert a b).Pairwise (fun c c' : Host.Cell => c.1 < c'.1) := by
  induction m with
  | nil => simp [Memory.insert]
  | cons d rest ih =>
    obtain ⟨k, x⟩ := d
    rw [List.pairwise_cons] at h
    unfold Memory.insert
    split
    · rename_i hlt
      refine List.pairwise_cons.2 ⟨?_, List.pairwise_cons.2 h⟩
      intro c hc
      rcases List.mem_cons.1 hc with rfl | hc
      · exact hlt
      · exact lt_trans hlt (h.1 c hc)
    · split
      · rename_i h2; subst h2
        exact List.pairwise_cons.2 ⟨h.1, h.2⟩
      · rename_i h1 h2
        refine List.pairwise_cons.2 ⟨?_, ih h.2⟩
        intro c hc
        rcases Memory.mem_insert hc with rfl | hc
        · show k < a; omega
        · exact h.1 c hc

/-- A write keeps the canonical form. -/
theorem Memory.write_wf (sp : Space) (m : Memory) (a : Nat) (b : Byte) (h : Memory.wf sp m = true) :
    Memory.wf sp (Memory.write sp m a b) = true := by
  rw [Memory.wf_iff] at h ⊢
  unfold Memory.write
  split
  · exact ⟨h.1.filter _, fun c hc => h.2 c (List.mem_filter.1 hc).1⟩
  · rename_i hb
    refine ⟨Memory.insert_pairwise m a b h.1, fun c hc => ?_⟩
    rcases Memory.mem_insert hc with rfl | hc
    · exact hb
    · exact h.2 c hc

/-- What a write lists was listed before or is the byte written. -/
theorem Memory.mem_write {sp : Space} {m : Memory} {a : Nat} {b : Byte} {c : Host.Cell}
    (h : c ∈ Memory.write sp m a b) : c = (a, b) ∨ c ∈ m := by
  unfold Memory.write at h
  split at h
  · exact .inr (List.mem_filter.1 h).1
  · exact Memory.mem_insert h

/-- The memories after reset have the canonical form. -/
theorem State.reset_memory_wf (c : Cfg) :
    Memory.wf .data (State.resetOf c).dm = true ∧ Memory.wf .program (State.resetOf c).pm = true := ⟨rfl, rfl⟩

/-- In canonical form a listed byte is the one its address reads as. -/
theorem Memory.lookup_of_mem {m : Memory} (h : m.Pairwise (fun c c' : Host.Cell => c.1 < c'.1)) {c : Host.Cell}
    (hc : c ∈ m) : m.lookup c.1 = some c.2 := by
  induction m with
  | nil => simp at hc
  | cons d rest ih =>
    obtain ⟨k, x⟩ := d
    rw [List.pairwise_cons] at h
    rcases List.mem_cons.1 hc with rfl | hc
    · simp [Memory.lookup]
    · have : k < c.1 := h.1 c hc
      simp [Memory.lookup, Nat.ne_of_lt this, ih h.2 hc]

/-- Data memory keeps its canonical form through `MemWrite`. -/
theorem State.memWrite_dm_wf {s t : State} {addr : DataAddr} {v : Byte} (h : s.memWrite addr v = .ok t)
    (hw : Memory.wf .data s.dm = true) : Memory.wf .data t.dm = true := by
  unfold State.memWrite at h
  split at h
  · cases h; exact hw
  · cases h
    have : ∀ (r : CpuReg) (s : State), (s.cpuWrite r v).dm = s.dm := by
      intro r s
      cases r with
      | spl => unfold State.cpuWrite; dsimp only; split <;> rfl
      | eind => unfold State.cpuWrite State.setEind; dsimp only; split <;> rfl
      | ramp r => unfold State.cpuWrite State.setRamp; dsimp only; split <;> cases r <;> rfl
      | _ => rfl
    unfold State.ioWrite
    split
    · rw [this]; exact hw
    · exact hw
  · cases h; exact hw
  · cases h; exact Memory.write_wf .data s.dm _ _ hw
  · split at h
    · cases h; exact hw
    · cases h

end Sys2Proof.Machine
end

