-- ==== Sys2Proof/Laws/State.lean ====
section
/-! SUPPORT. What each named update of the state does to each field, and to the values read from the state. All are
simplification lemmas, so that no proof unfolds a record update. -/

namespace Sys2Proof.Machine

variable (s : State)

/-! ### `setReg` -/

@[simp] theorem State.setReg_cfg (d : Reg) (v : Byte) : (s.setReg d v).cfg = s.cfg := rfl
@[simp] theorem State.setReg_regs (d : Reg) (v : Byte) : (s.setReg d v).regs = s.regs.set d.toNat v d.isLt := rfl
@[simp] theorem State.setReg_pc (d : Reg) (v : Byte) : (s.setReg d v).pc = s.pc := rfl
@[simp] theorem State.setReg_sreg (d : Reg) (v : Byte) : (s.setReg d v).sreg = s.sreg := rfl
@[simp] theorem State.setReg_sp (d : Reg) (v : Byte) : (s.setReg d v).sp = s.sp := rfl
@[simp] theorem State.setReg_hwStack (d : Reg) (v : Byte) : (s.setReg d v).hwStack = s.hwStack := rfl
@[simp] theorem State.setReg_rampd (d : Reg) (v : Byte) : (s.setReg d v).rampd = s.rampd := rfl
@[simp] theorem State.setReg_rampx (d : Reg) (v : Byte) : (s.setReg d v).rampx = s.rampx := rfl
@[simp] theorem State.setReg_rampy (d : Reg) (v : Byte) : (s.setReg d v).rampy = s.rampy := rfl
@[simp] theorem State.setReg_rampz (d : Reg) (v : Byte) : (s.setReg d v).rampz = s.rampz := rfl
@[simp] theorem State.setReg_eind (d : Reg) (v : Byte) : (s.setReg d v).eind = s.eind := rfl
@[simp] theorem State.setReg_dm (d : Reg) (v : Byte) : (s.setReg d v).dm = s.dm := rfl
@[simp] theorem State.setReg_pm (d : Reg) (v : Byte) : (s.setReg d v).pm = s.pm := rfl
@[simp] theorem State.setReg_irqInhibit (d : Reg) (v : Byte) : (s.setReg d v).irqInhibit = s.irqInhibit := rfl
@[simp] theorem State.setReg_sleeping (d : Reg) (v : Byte) : (s.setReg d v).sleeping = s.sleeping := rfl
@[simp] theorem State.setReg_pending (d : Reg) (v : Byte) : (s.setReg d v).pending = s.pending := rfl
@[simp] theorem State.setReg_inputs (d : Reg) (v : Byte) : (s.setReg d v).inputs = s.inputs := rfl
@[simp] theorem State.setReg_draws (d : Reg) (v : Byte) : (s.setReg d v).draws = s.draws := rfl
@[simp] theorem State.setReg_trace (d : Reg) (v : Byte) : (s.setReg d v).trace = s.trace := rfl

/-! ### `setSreg` -/

@[simp] theorem State.setSreg_cfg (v : Byte) : (s.setSreg v).cfg = s.cfg := rfl
@[simp] theorem State.setSreg_regs (v : Byte) : (s.setSreg v).regs = s.regs := rfl
@[simp] theorem State.setSreg_pc (v : Byte) : (s.setSreg v).pc = s.pc := rfl
@[simp] theorem State.setSreg_sreg (v : Byte) : (s.setSreg v).sreg = v := rfl
@[simp] theorem State.setSreg_sp (v : Byte) : (s.setSreg v).sp = s.sp := rfl
@[simp] theorem State.setSreg_hwStack (v : Byte) : (s.setSreg v).hwStack = s.hwStack := rfl
@[simp] theorem State.setSreg_rampd (v : Byte) : (s.setSreg v).rampd = s.rampd := rfl
@[simp] theorem State.setSreg_rampx (v : Byte) : (s.setSreg v).rampx = s.rampx := rfl
@[simp] theorem State.setSreg_rampy (v : Byte) : (s.setSreg v).rampy = s.rampy := rfl
@[simp] theorem State.setSreg_rampz (v : Byte) : (s.setSreg v).rampz = s.rampz := rfl
@[simp] theorem State.setSreg_eind (v : Byte) : (s.setSreg v).eind = s.eind := rfl
@[simp] theorem State.setSreg_dm (v : Byte) : (s.setSreg v).dm = s.dm := rfl
@[simp] theorem State.setSreg_pm (v : Byte) : (s.setSreg v).pm = s.pm := rfl
@[simp] theorem State.setSreg_irqInhibit (v : Byte) : (s.setSreg v).irqInhibit = s.irqInhibit := rfl
@[simp] theorem State.setSreg_sleeping (v : Byte) : (s.setSreg v).sleeping = s.sleeping := rfl
@[simp] theorem State.setSreg_pending (v : Byte) : (s.setSreg v).pending = s.pending := rfl
@[simp] theorem State.setSreg_inputs (v : Byte) : (s.setSreg v).inputs = s.inputs := rfl
@[simp] theorem State.setSreg_draws (v : Byte) : (s.setSreg v).draws = s.draws := rfl
@[simp] theorem State.setSreg_trace (v : Byte) : (s.setSreg v).trace = s.trace := rfl

/-! ### `setPc` -/

@[simp] theorem State.setPc_cfg (v : ProgAddr) : (s.setPc v).cfg = s.cfg := rfl
@[simp] theorem State.setPc_regs (v : ProgAddr) : (s.setPc v).regs = s.regs := rfl
@[simp] theorem State.setPc_pc (v : ProgAddr) : (s.setPc v).pc = v := rfl
@[simp] theorem State.setPc_sreg (v : ProgAddr) : (s.setPc v).sreg = s.sreg := rfl
@[simp] theorem State.setPc_sp (v : ProgAddr) : (s.setPc v).sp = s.sp := rfl
@[simp] theorem State.setPc_hwStack (v : ProgAddr) : (s.setPc v).hwStack = s.hwStack := rfl
@[simp] theorem State.setPc_rampd (v : ProgAddr) : (s.setPc v).rampd = s.rampd := rfl
@[simp] theorem State.setPc_rampx (v : ProgAddr) : (s.setPc v).rampx = s.rampx := rfl
@[simp] theorem State.setPc_rampy (v : ProgAddr) : (s.setPc v).rampy = s.rampy := rfl
@[simp] theorem State.setPc_rampz (v : ProgAddr) : (s.setPc v).rampz = s.rampz := rfl
@[simp] theorem State.setPc_eind (v : ProgAddr) : (s.setPc v).eind = s.eind := rfl
@[simp] theorem State.setPc_dm (v : ProgAddr) : (s.setPc v).dm = s.dm := rfl
@[simp] theorem State.setPc_pm (v : ProgAddr) : (s.setPc v).pm = s.pm := rfl
@[simp] theorem State.setPc_irqInhibit (v : ProgAddr) : (s.setPc v).irqInhibit = s.irqInhibit := rfl
@[simp] theorem State.setPc_sleeping (v : ProgAddr) : (s.setPc v).sleeping = s.sleeping := rfl
@[simp] theorem State.setPc_pending (v : ProgAddr) : (s.setPc v).pending = s.pending := rfl
@[simp] theorem State.setPc_inputs (v : ProgAddr) : (s.setPc v).inputs = s.inputs := rfl
@[simp] theorem State.setPc_draws (v : ProgAddr) : (s.setPc v).draws = s.draws := rfl
@[simp] theorem State.setPc_trace (v : ProgAddr) : (s.setPc v).trace = s.trace := rfl

/-! ### `setSp` -/

@[simp] theorem State.setSp_cfg (v : BitVec 16) : (s.setSp v).cfg = s.cfg := rfl
@[simp] theorem State.setSp_regs (v : BitVec 16) : (s.setSp v).regs = s.regs := rfl
@[simp] theorem State.setSp_pc (v : BitVec 16) : (s.setSp v).pc = s.pc := rfl
@[simp] theorem State.setSp_sreg (v : BitVec 16) : (s.setSp v).sreg = s.sreg := rfl
@[simp] theorem State.setSp_sp (v : BitVec 16) : (s.setSp v).sp = lowBits s.cfg.spBits v := rfl
@[simp] theorem State.setSp_hwStack (v : BitVec 16) : (s.setSp v).hwStack = s.hwStack := rfl
@[simp] theorem State.setSp_rampd (v : BitVec 16) : (s.setSp v).rampd = s.rampd := rfl
@[simp] theorem State.setSp_rampx (v : BitVec 16) : (s.setSp v).rampx = s.rampx := rfl
@[simp] theorem State.setSp_rampy (v : BitVec 16) : (s.setSp v).rampy = s.rampy := rfl
@[simp] theorem State.setSp_rampz (v : BitVec 16) : (s.setSp v).rampz = s.rampz := rfl
@[simp] theorem State.setSp_eind (v : BitVec 16) : (s.setSp v).eind = s.eind := rfl
@[simp] theorem State.setSp_dm (v : BitVec 16) : (s.setSp v).dm = s.dm := rfl
@[simp] theorem State.setSp_pm (v : BitVec 16) : (s.setSp v).pm = s.pm := rfl
@[simp] theorem State.setSp_irqInhibit (v : BitVec 16) : (s.setSp v).irqInhibit = s.irqInhibit := rfl
@[simp] theorem State.setSp_sleeping (v : BitVec 16) : (s.setSp v).sleeping = s.sleeping := rfl
@[simp] theorem State.setSp_pending (v : BitVec 16) : (s.setSp v).pending = s.pending := rfl
@[simp] theorem State.setSp_inputs (v : BitVec 16) : (s.setSp v).inputs = s.inputs := rfl
@[simp] theorem State.setSp_draws (v : BitVec 16) : (s.setSp v).draws = s.draws := rfl
@[simp] theorem State.setSp_trace (v : BitVec 16) : (s.setSp v).trace = s.trace := rfl

/-! ### `setHwStack` -/

@[simp] theorem State.setHwStack_cfg (v : List ProgAddr) : (s.setHwStack v).cfg = s.cfg := rfl
@[simp] theorem State.setHwStack_regs (v : List ProgAddr) : (s.setHwStack v).regs = s.regs := rfl
@[simp] theorem State.setHwStack_pc (v : List ProgAddr) : (s.setHwStack v).pc = s.pc := rfl
@[simp] theorem State.setHwStack_sreg (v : List ProgAddr) : (s.setHwStack v).sreg = s.sreg := rfl
@[simp] theorem State.setHwStack_sp (v : List ProgAddr) : (s.setHwStack v).sp = s.sp := rfl
@[simp] theorem State.setHwStack_hwStack (v : List ProgAddr) : (s.setHwStack v).hwStack = v := rfl
@[simp] theorem State.setHwStack_rampd (v : List ProgAddr) : (s.setHwStack v).rampd = s.rampd := rfl
@[simp] theorem State.setHwStack_rampx (v : List ProgAddr) : (s.setHwStack v).rampx = s.rampx := rfl
@[simp] theorem State.setHwStack_rampy (v : List ProgAddr) : (s.setHwStack v).rampy = s.rampy := rfl
@[simp] theorem State.setHwStack_rampz (v : List ProgAddr) : (s.setHwStack v).rampz = s.rampz := rfl
@[simp] theorem State.setHwStack_eind (v : List ProgAddr) : (s.setHwStack v).eind = s.eind := rfl
@[simp] theorem State.setHwStack_dm (v : List ProgAddr) : (s.setHwStack v).dm = s.dm := rfl
@[simp] theorem State.setHwStack_pm (v : List ProgAddr) : (s.setHwStack v).pm = s.pm := rfl
@[simp] theorem State.setHwStack_irqInhibit (v : List ProgAddr) : (s.setHwStack v).irqInhibit = s.irqInhibit := rfl
@[simp] theorem State.setHwStack_sleeping (v : List ProgAddr) : (s.setHwStack v).sleeping = s.sleeping := rfl
@[simp] theorem State.setHwStack_pending (v : List ProgAddr) : (s.setHwStack v).pending = s.pending := rfl
@[simp] theorem State.setHwStack_inputs (v : List ProgAddr) : (s.setHwStack v).inputs = s.inputs := rfl
@[simp] theorem State.setHwStack_draws (v : List ProgAddr) : (s.setHwStack v).draws = s.draws := rfl
@[simp] theorem State.setHwStack_trace (v : List ProgAddr) : (s.setHwStack v).trace = s.trace := rfl

/-! ### `setIrqInhibit` -/

@[simp] theorem State.setIrqInhibit_cfg (v : Bool) : (s.setIrqInhibit v).cfg = s.cfg := rfl
@[simp] theorem State.setIrqInhibit_regs (v : Bool) : (s.setIrqInhibit v).regs = s.regs := rfl
@[simp] theorem State.setIrqInhibit_pc (v : Bool) : (s.setIrqInhibit v).pc = s.pc := rfl
@[simp] theorem State.setIrqInhibit_sreg (v : Bool) : (s.setIrqInhibit v).sreg = s.sreg := rfl
@[simp] theorem State.setIrqInhibit_sp (v : Bool) : (s.setIrqInhibit v).sp = s.sp := rfl
@[simp] theorem State.setIrqInhibit_hwStack (v : Bool) : (s.setIrqInhibit v).hwStack = s.hwStack := rfl
@[simp] theorem State.setIrqInhibit_rampd (v : Bool) : (s.setIrqInhibit v).rampd = s.rampd := rfl
@[simp] theorem State.setIrqInhibit_rampx (v : Bool) : (s.setIrqInhibit v).rampx = s.rampx := rfl
@[simp] theorem State.setIrqInhibit_rampy (v : Bool) : (s.setIrqInhibit v).rampy = s.rampy := rfl
@[simp] theorem State.setIrqInhibit_rampz (v : Bool) : (s.setIrqInhibit v).rampz = s.rampz := rfl
@[simp] theorem State.setIrqInhibit_eind (v : Bool) : (s.setIrqInhibit v).eind = s.eind := rfl
@[simp] theorem State.setIrqInhibit_dm (v : Bool) : (s.setIrqInhibit v).dm = s.dm := rfl
@[simp] theorem State.setIrqInhibit_pm (v : Bool) : (s.setIrqInhibit v).pm = s.pm := rfl
@[simp] theorem State.setIrqInhibit_irqInhibit (v : Bool) : (s.setIrqInhibit v).irqInhibit = v := rfl
@[simp] theorem State.setIrqInhibit_sleeping (v : Bool) : (s.setIrqInhibit v).sleeping = s.sleeping := rfl
@[simp] theorem State.setIrqInhibit_pending (v : Bool) : (s.setIrqInhibit v).pending = s.pending := rfl
@[simp] theorem State.setIrqInhibit_inputs (v : Bool) : (s.setIrqInhibit v).inputs = s.inputs := rfl
@[simp] theorem State.setIrqInhibit_draws (v : Bool) : (s.setIrqInhibit v).draws = s.draws := rfl
@[simp] theorem State.setIrqInhibit_trace (v : Bool) : (s.setIrqInhibit v).trace = s.trace := rfl

/-! ### `setSleeping` -/

@[simp] theorem State.setSleeping_cfg (v : Bool) : (s.setSleeping v).cfg = s.cfg := rfl
@[simp] theorem State.setSleeping_regs (v : Bool) : (s.setSleeping v).regs = s.regs := rfl
@[simp] theorem State.setSleeping_pc (v : Bool) : (s.setSleeping v).pc = s.pc := rfl
@[simp] theorem State.setSleeping_sreg (v : Bool) : (s.setSleeping v).sreg = s.sreg := rfl
@[simp] theorem State.setSleeping_sp (v : Bool) : (s.setSleeping v).sp = s.sp := rfl
@[simp] theorem State.setSleeping_hwStack (v : Bool) : (s.setSleeping v).hwStack = s.hwStack := rfl
@[simp] theorem State.setSleeping_rampd (v : Bool) : (s.setSleeping v).rampd = s.rampd := rfl
@[simp] theorem State.setSleeping_rampx (v : Bool) : (s.setSleeping v).rampx = s.rampx := rfl
@[simp] theorem State.setSleeping_rampy (v : Bool) : (s.setSleeping v).rampy = s.rampy := rfl
@[simp] theorem State.setSleeping_rampz (v : Bool) : (s.setSleeping v).rampz = s.rampz := rfl
@[simp] theorem State.setSleeping_eind (v : Bool) : (s.setSleeping v).eind = s.eind := rfl
@[simp] theorem State.setSleeping_dm (v : Bool) : (s.setSleeping v).dm = s.dm := rfl
@[simp] theorem State.setSleeping_pm (v : Bool) : (s.setSleeping v).pm = s.pm := rfl
@[simp] theorem State.setSleeping_irqInhibit (v : Bool) : (s.setSleeping v).irqInhibit = s.irqInhibit := rfl
@[simp] theorem State.setSleeping_sleeping (v : Bool) : (s.setSleeping v).sleeping = v := rfl
@[simp] theorem State.setSleeping_pending (v : Bool) : (s.setSleeping v).pending = s.pending := rfl
@[simp] theorem State.setSleeping_inputs (v : Bool) : (s.setSleeping v).inputs = s.inputs := rfl
@[simp] theorem State.setSleeping_draws (v : Bool) : (s.setSleeping v).draws = s.draws := rfl
@[simp] theorem State.setSleeping_trace (v : Bool) : (s.setSleeping v).trace = s.trace := rfl

/-! ### `emit` -/

@[simp] theorem State.emit_cfg (v : Event) : (s.emit v).cfg = s.cfg := rfl
@[simp] theorem State.emit_regs (v : Event) : (s.emit v).regs = s.regs := rfl
@[simp] theorem State.emit_pc (v : Event) : (s.emit v).pc = s.pc := rfl
@[simp] theorem State.emit_sreg (v : Event) : (s.emit v).sreg = s.sreg := rfl
@[simp] theorem State.emit_sp (v : Event) : (s.emit v).sp = s.sp := rfl
@[simp] theorem State.emit_hwStack (v : Event) : (s.emit v).hwStack = s.hwStack := rfl
@[simp] theorem State.emit_rampd (v : Event) : (s.emit v).rampd = s.rampd := rfl
@[simp] theorem State.emit_rampx (v : Event) : (s.emit v).rampx = s.rampx := rfl
@[simp] theorem State.emit_rampy (v : Event) : (s.emit v).rampy = s.rampy := rfl
@[simp] theorem State.emit_rampz (v : Event) : (s.emit v).rampz = s.rampz := rfl
@[simp] theorem State.emit_eind (v : Event) : (s.emit v).eind = s.eind := rfl
@[simp] theorem State.emit_dm (v : Event) : (s.emit v).dm = s.dm := rfl
@[simp] theorem State.emit_pm (v : Event) : (s.emit v).pm = s.pm := rfl
@[simp] theorem State.emit_irqInhibit (v : Event) : (s.emit v).irqInhibit = s.irqInhibit := rfl
@[simp] theorem State.emit_sleeping (v : Event) : (s.emit v).sleeping = s.sleeping := rfl
@[simp] theorem State.emit_pending (v : Event) : (s.emit v).pending = s.pending := rfl
@[simp] theorem State.emit_inputs (v : Event) : (s.emit v).inputs = s.inputs := rfl
@[simp] theorem State.emit_draws (v : Event) : (s.emit v).draws = s.draws := rfl
@[simp] theorem State.emit_trace (v : Event) : (s.emit v).trace = v :: s.trace := rfl

/-! ### `setDm` -/

@[simp] theorem State.setDm_cfg (v : Memory) : (s.setDm v).cfg = s.cfg := rfl
@[simp] theorem State.setDm_regs (v : Memory) : (s.setDm v).regs = s.regs := rfl
@[simp] theorem State.setDm_pc (v : Memory) : (s.setDm v).pc = s.pc := rfl
@[simp] theorem State.setDm_sreg (v : Memory) : (s.setDm v).sreg = s.sreg := rfl
@[simp] theorem State.setDm_sp (v : Memory) : (s.setDm v).sp = s.sp := rfl
@[simp] theorem State.setDm_hwStack (v : Memory) : (s.setDm v).hwStack = s.hwStack := rfl
@[simp] theorem State.setDm_rampd (v : Memory) : (s.setDm v).rampd = s.rampd := rfl
@[simp] theorem State.setDm_rampx (v : Memory) : (s.setDm v).rampx = s.rampx := rfl
@[simp] theorem State.setDm_rampy (v : Memory) : (s.setDm v).rampy = s.rampy := rfl
@[simp] theorem State.setDm_rampz (v : Memory) : (s.setDm v).rampz = s.rampz := rfl
@[simp] theorem State.setDm_eind (v : Memory) : (s.setDm v).eind = s.eind := rfl
@[simp] theorem State.setDm_dm (v : Memory) : (s.setDm v).dm = v := rfl
@[simp] theorem State.setDm_pm (v : Memory) : (s.setDm v).pm = s.pm := rfl
@[simp] theorem State.setDm_irqInhibit (v : Memory) : (s.setDm v).irqInhibit = s.irqInhibit := rfl
@[simp] theorem State.setDm_sleeping (v : Memory) : (s.setDm v).sleeping = s.sleeping := rfl
@[simp] theorem State.setDm_pending (v : Memory) : (s.setDm v).pending = s.pending := rfl
@[simp] theorem State.setDm_inputs (v : Memory) : (s.setDm v).inputs = s.inputs := rfl
@[simp] theorem State.setDm_draws (v : Memory) : (s.setDm v).draws = s.draws := rfl
@[simp] theorem State.setDm_trace (v : Memory) : (s.setDm v).trace = s.trace := rfl

/-! ### Values read from the state, through the updates that do not touch them -/

@[simp] theorem State.spVal_setReg (d : Reg) (v : Byte) : (s.setReg d v).spVal = s.spVal := rfl
@[simp] theorem State.rampRaw_setReg (d : Reg) (v : Byte) (r : Ramp) : (s.setReg d v).rampRaw r = s.rampRaw r := rfl
@[simp] theorem State.ramp_setReg (d : Reg) (v : Byte) (r : Ramp) : (s.setReg d v).ramp r = s.ramp r := rfl
@[simp] theorem State.eindVal_setReg (d : Reg) (v : Byte) : (s.setReg d v).eindVal = s.eindVal := rfl
@[simp] theorem State.pcPlus_setReg (d : Reg) (v : Byte) (n : Nat) : (s.setReg d v).pcPlus n = s.pcPlus n := rfl
@[simp] theorem State.directAddr_setReg (d : Reg) (v : Byte) (k : BitVec 16) : (s.setReg d v).directAddr k = s.directAddr k := rfl
@[simp] theorem State.pmByte_setReg (d : Reg) (v : Byte) (a : Nat) : (s.setReg d v).pmByte a = s.pmByte a := rfl
@[simp] theorem State.progWord_setReg (d : Reg) (v : Byte) (a : ProgAddr) : (s.setReg d v).progWord a = s.progWord a := rfl
@[simp] theorem State.progByte_setReg (d : Reg) (v : Byte) (a : Nat) : (s.setReg d v).progByte a = s.progByte a := rfl
@[simp] theorem State.relTarget_setReg (d : Reg) (v : Byte) (k : ProgAddr) : (s.setReg d v).relTarget k = s.relTarget k := rfl

@[simp] theorem State.reg_setSreg (v : Byte) (x : Reg) : (s.setSreg v).reg x = s.reg x := rfl
@[simp] theorem State.pair_setSreg (v : Byte) (x : Reg) : (s.setSreg v).pair x = s.pair x := rfl
@[simp] theorem State.spVal_setSreg (v : Byte) : (s.setSreg v).spVal = s.spVal := rfl
@[simp] theorem State.rampRaw_setSreg (v : Byte) (r : Ramp) : (s.setSreg v).rampRaw r = s.rampRaw r := rfl
@[simp] theorem State.ramp_setSreg (v : Byte) (r : Ramp) : (s.setSreg v).ramp r = s.ramp r := rfl
@[simp] theorem State.eindVal_setSreg (v : Byte) : (s.setSreg v).eindVal = s.eindVal := rfl
@[simp] theorem State.pcPlus_setSreg (v : Byte) (n : Nat) : (s.setSreg v).pcPlus n = s.pcPlus n := rfl
@[simp] theorem State.ptrGet_setSreg (v : Byte) (p : Ptr) : (s.setSreg v).ptrGet p = s.ptrGet p := rfl
@[simp] theorem State.ptrPlus_setSreg (v : Byte) (p : Ptr) (n : DataAddr) : (s.setSreg v).ptrPlus p n = s.ptrPlus p n := rfl
@[simp] theorem State.directAddr_setSreg (v : Byte) (k : BitVec 16) : (s.setSreg v).directAddr k = s.directAddr k := rfl
@[simp] theorem State.pmByte_setSreg (v : Byte) (a : Nat) : (s.setSreg v).pmByte a = s.pmByte a := rfl
@[simp] theorem State.progWord_setSreg (v : Byte) (a : ProgAddr) : (s.setSreg v).progWord a = s.progWord a := rfl
@[simp] theorem State.progByte_setSreg (v : Byte) (a : Nat) : (s.setSreg v).progByte a = s.progByte a := rfl
@[simp] theorem State.indirectTarget_setSreg (v : Byte) : (s.setSreg v).indirectTarget = s.indirectTarget := rfl
@[simp] theorem State.extendedTarget_setSreg (v : Byte) : (s.setSreg v).extendedTarget = s.extendedTarget := rfl
@[simp] theorem State.relTarget_setSreg (v : Byte) (k : ProgAddr) : (s.setSreg v).relTarget k = s.relTarget k := rfl

@[simp] theorem State.reg_setPc (v : ProgAddr) (x : Reg) : (s.setPc v).reg x = s.reg x := rfl
@[simp] theorem State.pair_setPc (v : ProgAddr) (x : Reg) : (s.setPc v).pair x = s.pair x := rfl
@[simp] theorem State.spVal_setPc (v : ProgAddr) : (s.setPc v).spVal = s.spVal := rfl
@[simp] theorem State.rampRaw_setPc (v : ProgAddr) (r : Ramp) : (s.setPc v).rampRaw r = s.rampRaw r := rfl
@[simp] theorem State.ramp_setPc (v : ProgAddr) (r : Ramp) : (s.setPc v).ramp r = s.ramp r := rfl
@[simp] theorem State.eindVal_setPc (v : ProgAddr) : (s.setPc v).eindVal = s.eindVal := rfl
@[simp] theorem State.ptrGet_setPc (v : ProgAddr) (p : Ptr) : (s.setPc v).ptrGet p = s.ptrGet p := rfl
@[simp] theorem State.ptrPlus_setPc (v : ProgAddr) (p : Ptr) (n : DataAddr) : (s.setPc v).ptrPlus p n = s.ptrPlus p n := rfl
@[simp] theorem State.directAddr_setPc (v : ProgAddr) (k : BitVec 16) : (s.setPc v).directAddr k = s.directAddr k := rfl
@[simp] theorem State.pmByte_setPc (v : ProgAddr) (a : Nat) : (s.setPc v).pmByte a = s.pmByte a := rfl
@[simp] theorem State.progWord_setPc (v : ProgAddr) (a : ProgAddr) : (s.setPc v).progWord a = s.progWord a := rfl
@[simp] theorem State.progByte_setPc (v : ProgAddr) (a : Nat) : (s.setPc v).progByte a = s.progByte a := rfl
@[simp] theorem State.indirectTarget_setPc (v : ProgAddr) : (s.setPc v).indirectTarget = s.indirectTarget := rfl
@[simp] theorem State.extendedTarget_setPc (v : ProgAddr) : (s.setPc v).extendedTarget = s.extendedTarget := rfl

@[simp] theorem State.reg_setSp (v : BitVec 16) (x : Reg) : (s.setSp v).reg x = s.reg x := rfl
@[simp] theorem State.pair_setSp (v : BitVec 16) (x : Reg) : (s.setSp v).pair x = s.pair x := rfl
@[simp] theorem State.rampRaw_setSp (v : BitVec 16) (r : Ramp) : (s.setSp v).rampRaw r = s.rampRaw r := rfl
@[simp] theorem State.ramp_setSp (v : BitVec 16) (r : Ramp) : (s.setSp v).ramp r = s.ramp r := rfl
@[simp] theorem State.eindVal_setSp (v : BitVec 16) : (s.setSp v).eindVal = s.eindVal := rfl
@[simp] theorem State.pcPlus_setSp (v : BitVec 16) (n : Nat) : (s.setSp v).pcPlus n = s.pcPlus n := rfl
@[simp] theorem State.ptrGet_setSp (v : BitVec 16) (p : Ptr) : (s.setSp v).ptrGet p = s.ptrGet p := rfl
@[simp] theorem State.ptrPlus_setSp (v : BitVec 16) (p : Ptr) (n : DataAddr) : (s.setSp v).ptrPlus p n = s.ptrPlus p n := rfl
@[simp] theorem State.directAddr_setSp (v : BitVec 16) (k : BitVec 16) : (s.setSp v).directAddr k = s.directAddr k := rfl
@[simp] theorem State.pmByte_setSp (v : BitVec 16) (a : Nat) : (s.setSp v).pmByte a = s.pmByte a := rfl
@[simp] theorem State.progWord_setSp (v : BitVec 16) (a : ProgAddr) : (s.setSp v).progWord a = s.progWord a := rfl
@[simp] theorem State.progByte_setSp (v : BitVec 16) (a : Nat) : (s.setSp v).progByte a = s.progByte a := rfl
@[simp] theorem State.indirectTarget_setSp (v : BitVec 16) : (s.setSp v).indirectTarget = s.indirectTarget := rfl
@[simp] theorem State.extendedTarget_setSp (v : BitVec 16) : (s.setSp v).extendedTarget = s.extendedTarget := rfl
@[simp] theorem State.relTarget_setSp (v : BitVec 16) (k : ProgAddr) : (s.setSp v).relTarget k = s.relTarget k := rfl

@[simp] theorem State.reg_setHwStack (v : List ProgAddr) (x : Reg) : (s.setHwStack v).reg x = s.reg x := rfl
@[simp] theorem State.pair_setHwStack (v : List ProgAddr) (x : Reg) : (s.setHwStack v).pair x = s.pair x := rfl
@[simp] theorem State.spVal_setHwStack (v : List ProgAddr) : (s.setHwStack v).spVal = s.spVal := rfl
@[simp] theorem State.rampRaw_setHwStack (v : List ProgAddr) (r : Ramp) : (s.setHwStack v).rampRaw r = s.rampRaw r := rfl
@[simp] theorem State.ramp_setHwStack (v : List ProgAddr) (r : Ramp) : (s.setHwStack v).ramp r = s.ramp r := rfl
@[simp] theorem State.eindVal_setHwStack (v : List ProgAddr) : (s.setHwStack v).eindVal = s.eindVal := rfl
@[simp] theorem State.pcPlus_setHwStack (v : List ProgAddr) (n : Nat) : (s.setHwStack v).pcPlus n = s.pcPlus n := rfl
@[simp] theorem State.ptrGet_setHwStack (v : List ProgAddr) (p : Ptr) : (s.setHwStack v).ptrGet p = s.ptrGet p := rfl
@[simp] theorem State.ptrPlus_setHwStack (v : List ProgAddr) (p : Ptr) (n : DataAddr) : (s.setHwStack v).ptrPlus p n = s.ptrPlus p n := rfl
@[simp] theorem State.directAddr_setHwStack (v : List ProgAddr) (k : BitVec 16) : (s.setHwStack v).directAddr k = s.directAddr k := rfl
@[simp] theorem State.pmByte_setHwStack (v : List ProgAddr) (a : Nat) : (s.setHwStack v).pmByte a = s.pmByte a := rfl
@[simp] theorem State.progWord_setHwStack (v : List ProgAddr) (a : ProgAddr) : (s.setHwStack v).progWord a = s.progWord a := rfl
@[simp] theorem State.progByte_setHwStack (v : List ProgAddr) (a : Nat) : (s.setHwStack v).progByte a = s.progByte a := rfl
@[simp] theorem State.indirectTarget_setHwStack (v : List ProgAddr) : (s.setHwStack v).indirectTarget = s.indirectTarget := rfl
@[simp] theorem State.extendedTarget_setHwStack (v : List ProgAddr) : (s.setHwStack v).extendedTarget = s.extendedTarget := rfl
@[simp] theorem State.relTarget_setHwStack (v : List ProgAddr) (k : ProgAddr) : (s.setHwStack v).relTarget k = s.relTarget k := rfl

@[simp] theorem State.reg_setIrqInhibit (v : Bool) (x : Reg) : (s.setIrqInhibit v).reg x = s.reg x := rfl
@[simp] theorem State.pair_setIrqInhibit (v : Bool) (x : Reg) : (s.setIrqInhibit v).pair x = s.pair x := rfl
@[simp] theorem State.spVal_setIrqInhibit (v : Bool) : (s.setIrqInhibit v).spVal = s.spVal := rfl
@[simp] theorem State.rampRaw_setIrqInhibit (v : Bool) (r : Ramp) : (s.setIrqInhibit v).rampRaw r = s.rampRaw r := rfl
@[simp] theorem State.ramp_setIrqInhibit (v : Bool) (r : Ramp) : (s.setIrqInhibit v).ramp r = s.ramp r := rfl
@[simp] theorem State.eindVal_setIrqInhibit (v : Bool) : (s.setIrqInhibit v).eindVal = s.eindVal := rfl
@[simp] theorem State.pcPlus_setIrqInhibit (v : Bool) (n : Nat) : (s.setIrqInhibit v).pcPlus n = s.pcPlus n := rfl
@[simp] theorem State.ptrGet_setIrqInhibit (v : Bool) (p : Ptr) : (s.setIrqInhibit v).ptrGet p = s.ptrGet p := rfl
@[simp] theorem State.ptrPlus_setIrqInhibit (v : Bool) (p : Ptr) (n : DataAddr) : (s.setIrqInhibit v).ptrPlus p n = s.ptrPlus p n := rfl
@[simp] theorem State.directAddr_setIrqInhibit (v : Bool) (k : BitVec 16) : (s.setIrqInhibit v).directAddr k = s.directAddr k := rfl
@[simp] theorem State.pmByte_setIrqInhibit (v : Bool) (a : Nat) : (s.setIrqInhibit v).pmByte a = s.pmByte a := rfl
@[simp] theorem State.progWord_setIrqInhibit (v : Bool) (a : ProgAddr) : (s.setIrqInhibit v).progWord a = s.progWord a := rfl
@[simp] theorem State.progByte_setIrqInhibit (v : Bool) (a : Nat) : (s.setIrqInhibit v).progByte a = s.progByte a := rfl
@[simp] theorem State.indirectTarget_setIrqInhibit (v : Bool) : (s.setIrqInhibit v).indirectTarget = s.indirectTarget := rfl
@[simp] theorem State.extendedTarget_setIrqInhibit (v : Bool) : (s.setIrqInhibit v).extendedTarget = s.extendedTarget := rfl
@[simp] theorem State.relTarget_setIrqInhibit (v : Bool) (k : ProgAddr) : (s.setIrqInhibit v).relTarget k = s.relTarget k := rfl

@[simp] theorem State.reg_setSleeping (v : Bool) (x : Reg) : (s.setSleeping v).reg x = s.reg x := rfl
@[simp] theorem State.pair_setSleeping (v : Bool) (x : Reg) : (s.setSleeping v).pair x = s.pair x := rfl
@[simp] theorem State.spVal_setSleeping (v : Bool) : (s.setSleeping v).spVal = s.spVal := rfl
@[simp] theorem State.rampRaw_setSleeping (v : Bool) (r : Ramp) : (s.setSleeping v).rampRaw r = s.rampRaw r := rfl
@[simp] theorem State.ramp_setSleeping (v : Bool) (r : Ramp) : (s.setSleeping v).ramp r = s.ramp r := rfl
@[simp] theorem State.eindVal_setSleeping (v : Bool) : (s.setSleeping v).eindVal = s.eindVal := rfl
@[simp] theorem State.pcPlus_setSleeping (v : Bool) (n : Nat) : (s.setSleeping v).pcPlus n = s.pcPlus n := rfl
@[simp] theorem State.ptrGet_setSleeping (v : Bool) (p : Ptr) : (s.setSleeping v).ptrGet p = s.ptrGet p := rfl
@[simp] theorem State.ptrPlus_setSleeping (v : Bool) (p : Ptr) (n : DataAddr) : (s.setSleeping v).ptrPlus p n = s.ptrPlus p n := rfl
@[simp] theorem State.directAddr_setSleeping (v : Bool) (k : BitVec 16) : (s.setSleeping v).directAddr k = s.directAddr k := rfl
@[simp] theorem State.pmByte_setSleeping (v : Bool) (a : Nat) : (s.setSleeping v).pmByte a = s.pmByte a := rfl
@[simp] theorem State.progWord_setSleeping (v : Bool) (a : ProgAddr) : (s.setSleeping v).progWord a = s.progWord a := rfl
@[simp] theorem State.progByte_setSleeping (v : Bool) (a : Nat) : (s.setSleeping v).progByte a = s.progByte a := rfl
@[simp] theorem State.indirectTarget_setSleeping (v : Bool) : (s.setSleeping v).indirectTarget = s.indirectTarget := rfl
@[simp] theorem State.extendedTarget_setSleeping (v : Bool) : (s.setSleeping v).extendedTarget = s.extendedTarget := rfl
@[simp] theorem State.relTarget_setSleeping (v : Bool) (k : ProgAddr) : (s.setSleeping v).relTarget k = s.relTarget k := rfl

@[simp] theorem State.reg_emit (v : Event) (x : Reg) : (s.emit v).reg x = s.reg x := rfl
@[simp] theorem State.pair_emit (v : Event) (x : Reg) : (s.emit v).pair x = s.pair x := rfl
@[simp] theorem State.spVal_emit (v : Event) : (s.emit v).spVal = s.spVal := rfl
@[simp] theorem State.rampRaw_emit (v : Event) (r : Ramp) : (s.emit v).rampRaw r = s.rampRaw r := rfl
@[simp] theorem State.ramp_emit (v : Event) (r : Ramp) : (s.emit v).ramp r = s.ramp r := rfl
@[simp] theorem State.eindVal_emit (v : Event) : (s.emit v).eindVal = s.eindVal := rfl
@[simp] theorem State.pcPlus_emit (v : Event) (n : Nat) : (s.emit v).pcPlus n = s.pcPlus n := rfl
@[simp] theorem State.ptrGet_emit (v : Event) (p : Ptr) : (s.emit v).ptrGet p = s.ptrGet p := rfl
@[simp] theorem State.ptrPlus_emit (v : Event) (p : Ptr) (n : DataAddr) : (s.emit v).ptrPlus p n = s.ptrPlus p n := rfl
@[simp] theorem State.directAddr_emit (v : Event) (k : BitVec 16) : (s.emit v).directAddr k = s.directAddr k := rfl
@[simp] theorem State.pmByte_emit (v : Event) (a : Nat) : (s.emit v).pmByte a = s.pmByte a := rfl
@[simp] theorem State.progWord_emit (v : Event) (a : ProgAddr) : (s.emit v).progWord a = s.progWord a := rfl
@[simp] theorem State.progByte_emit (v : Event) (a : Nat) : (s.emit v).progByte a = s.progByte a := rfl
@[simp] theorem State.indirectTarget_emit (v : Event) : (s.emit v).indirectTarget = s.indirectTarget := rfl
@[simp] theorem State.extendedTarget_emit (v : Event) : (s.emit v).extendedTarget = s.extendedTarget := rfl
@[simp] theorem State.relTarget_emit (v : Event) (k : ProgAddr) : (s.emit v).relTarget k = s.relTarget k := rfl

@[simp] theorem State.reg_setDm (v : Memory) (x : Reg) : (s.setDm v).reg x = s.reg x := rfl
@[simp] theorem State.pair_setDm (v : Memory) (x : Reg) : (s.setDm v).pair x = s.pair x := rfl
@[simp] theorem State.spVal_setDm (v : Memory) : (s.setDm v).spVal = s.spVal := rfl
@[simp] theorem State.rampRaw_setDm (v : Memory) (r : Ramp) : (s.setDm v).rampRaw r = s.rampRaw r := rfl
@[simp] theorem State.ramp_setDm (v : Memory) (r : Ramp) : (s.setDm v).ramp r = s.ramp r := rfl
@[simp] theorem State.eindVal_setDm (v : Memory) : (s.setDm v).eindVal = s.eindVal := rfl
@[simp] theorem State.pcPlus_setDm (v : Memory) (n : Nat) : (s.setDm v).pcPlus n = s.pcPlus n := rfl
@[simp] theorem State.ptrGet_setDm (v : Memory) (p : Ptr) : (s.setDm v).ptrGet p = s.ptrGet p := rfl
@[simp] theorem State.ptrPlus_setDm (v : Memory) (p : Ptr) (n : DataAddr) : (s.setDm v).ptrPlus p n = s.ptrPlus p n := rfl
@[simp] theorem State.directAddr_setDm (v : Memory) (k : BitVec 16) : (s.setDm v).directAddr k = s.directAddr k := rfl
@[simp] theorem State.pmByte_setDm (v : Memory) (a : Nat) : (s.setDm v).pmByte a = s.pmByte a := rfl
@[simp] theorem State.progWord_setDm (v : Memory) (a : ProgAddr) : (s.setDm v).progWord a = s.progWord a := rfl
@[simp] theorem State.progByte_setDm (v : Memory) (a : Nat) : (s.setDm v).progByte a = s.progByte a := rfl
@[simp] theorem State.indirectTarget_setDm (v : Memory) : (s.setDm v).indirectTarget = s.indirectTarget := rfl
@[simp] theorem State.extendedTarget_setDm (v : Memory) : (s.setDm v).extendedTarget = s.extendedTarget := rfl
@[simp] theorem State.relTarget_setDm (v : Memory) (k : ProgAddr) : (s.setDm v).relTarget k = s.relTarget k := rfl

/-! ### Registers -/

/-- A register reads as it was last written. -/
@[simp] theorem State.reg_setReg_same (d : Reg) (v : Byte) : (s.setReg d v).reg d = v := by
  simp [State.reg, State.setReg]

/-- A write to one register leaves the others. -/
theorem State.reg_setReg_other {d x : Reg} (v : Byte) (h : x ≠ d) : (s.setReg d v).reg x = s.reg x := by
  have h' : d.toNat ≠ x.toNat := fun e => h (BitVec.eq_of_toNat_eq e.symm)
  simp [State.reg, State.setReg, Vector.getElem_set_ne, h']

/-- Both cases at once. -/
theorem State.reg_setReg (d x : Reg) (v : Byte) : (s.setReg d v).reg x = if x = d then v else s.reg x := by
  by_cases h : x = d
  · subst h; simp
  · simp [h, State.reg_setReg_other]

/-! ### `setPair` -/

@[simp] theorem State.setPair_cfg (p : Reg) (v : BitVec 16) : (s.setPair p v).cfg = s.cfg := rfl
@[simp] theorem State.setPair_pc (p : Reg) (v : BitVec 16) : (s.setPair p v).pc = s.pc := rfl
@[simp] theorem State.setPair_sreg (p : Reg) (v : BitVec 16) : (s.setPair p v).sreg = s.sreg := rfl
@[simp] theorem State.setPair_sp (p : Reg) (v : BitVec 16) : (s.setPair p v).sp = s.sp := rfl
@[simp] theorem State.setPair_hwStack (p : Reg) (v : BitVec 16) : (s.setPair p v).hwStack = s.hwStack := rfl
@[simp] theorem State.setPair_rampd (p : Reg) (v : BitVec 16) : (s.setPair p v).rampd = s.rampd := rfl
@[simp] theorem State.setPair_rampx (p : Reg) (v : BitVec 16) : (s.setPair p v).rampx = s.rampx := rfl
@[simp] theorem State.setPair_rampy (p : Reg) (v : BitVec 16) : (s.setPair p v).rampy = s.rampy := rfl
@[simp] theorem State.setPair_rampz (p : Reg) (v : BitVec 16) : (s.setPair p v).rampz = s.rampz := rfl
@[simp] theorem State.setPair_eind (p : Reg) (v : BitVec 16) : (s.setPair p v).eind = s.eind := rfl
@[simp] theorem State.setPair_dm (p : Reg) (v : BitVec 16) : (s.setPair p v).dm = s.dm := rfl
@[simp] theorem State.setPair_pm (p : Reg) (v : BitVec 16) : (s.setPair p v).pm = s.pm := rfl
@[simp] theorem State.setPair_irqInhibit (p : Reg) (v : BitVec 16) : (s.setPair p v).irqInhibit = s.irqInhibit := rfl
@[simp] theorem State.setPair_sleeping (p : Reg) (v : BitVec 16) : (s.setPair p v).sleeping = s.sleeping := rfl
@[simp] theorem State.setPair_pending (p : Reg) (v : BitVec 16) : (s.setPair p v).pending = s.pending := rfl
@[simp] theorem State.setPair_inputs (p : Reg) (v : BitVec 16) : (s.setPair p v).inputs = s.inputs := rfl
@[simp] theorem State.setPair_draws (p : Reg) (v : BitVec 16) : (s.setPair p v).draws = s.draws := rfl
@[simp] theorem State.setPair_trace (p : Reg) (v : BitVec 16) : (s.setPair p v).trace = s.trace := rfl

/-! ### `advance` -/

@[simp] theorem State.advance_cfg (n : Nat) : (s.advance n).cfg = s.cfg := rfl
@[simp] theorem State.advance_regs (n : Nat) : (s.advance n).regs = s.regs := rfl
@[simp] theorem State.advance_sreg (n : Nat) : (s.advance n).sreg = s.sreg := rfl
@[simp] theorem State.advance_sp (n : Nat) : (s.advance n).sp = s.sp := rfl
@[simp] theorem State.advance_hwStack (n : Nat) : (s.advance n).hwStack = s.hwStack := rfl
@[simp] theorem State.advance_rampd (n : Nat) : (s.advance n).rampd = s.rampd := rfl
@[simp] theorem State.advance_rampx (n : Nat) : (s.advance n).rampx = s.rampx := rfl
@[simp] theorem State.advance_rampy (n : Nat) : (s.advance n).rampy = s.rampy := rfl
@[simp] theorem State.advance_rampz (n : Nat) : (s.advance n).rampz = s.rampz := rfl
@[simp] theorem State.advance_eind (n : Nat) : (s.advance n).eind = s.eind := rfl
@[simp] theorem State.advance_dm (n : Nat) : (s.advance n).dm = s.dm := rfl
@[simp] theorem State.advance_pm (n : Nat) : (s.advance n).pm = s.pm := rfl
@[simp] theorem State.advance_irqInhibit (n : Nat) : (s.advance n).irqInhibit = s.irqInhibit := rfl
@[simp] theorem State.advance_sleeping (n : Nat) : (s.advance n).sleeping = s.sleeping := rfl
@[simp] theorem State.advance_pending (n : Nat) : (s.advance n).pending = s.pending := rfl
@[simp] theorem State.advance_inputs (n : Nat) : (s.advance n).inputs = s.inputs := rfl
@[simp] theorem State.advance_draws (n : Nat) : (s.advance n).draws = s.draws := rfl
@[simp] theorem State.advance_trace (n : Nat) : (s.advance n).trace = s.trace := rfl

@[simp] theorem State.advance_pc (n : Nat) : (s.advance n).pc = s.pcPlus n := rfl
@[simp] theorem State.advance_reg (n : Nat) (x : Reg) : (s.advance n).reg x = s.reg x := rfl

/-! ### `setRamp` -/

@[simp] theorem State.setRamp_cfg (r : Ramp) (v : Byte) : (s.setRamp r v).cfg = s.cfg := by
  unfold State.setRamp; split <;> cases r <;> rfl
@[simp] theorem State.setRamp_regs (r : Ramp) (v : Byte) : (s.setRamp r v).regs = s.regs := by
  unfold State.setRamp; split <;> cases r <;> rfl
@[simp] theorem State.setRamp_pc (r : Ramp) (v : Byte) : (s.setRamp r v).pc = s.pc := by
  unfold State.setRamp; split <;> cases r <;> rfl
@[simp] theorem State.setRamp_sreg (r : Ramp) (v : Byte) : (s.setRamp r v).sreg = s.sreg := by
  unfold State.setRamp; split <;> cases r <;> rfl
@[simp] theorem State.setRamp_sp (r : Ramp) (v : Byte) : (s.setRamp r v).sp = s.sp := by
  unfold State.setRamp; split <;> cases r <;> rfl
@[simp] theorem State.setRamp_hwStack (r : Ramp) (v : Byte) : (s.setRamp r v).hwStack = s.hwStack := by
  unfold State.setRamp; split <;> cases r <;> rfl
@[simp] theorem State.setRamp_eind (r : Ramp) (v : Byte) : (s.setRamp r v).eind = s.eind := by
  unfold State.setRamp; split <;> cases r <;> rfl
@[simp] theorem State.setRamp_dm (r : Ramp) (v : Byte) : (s.setRamp r v).dm = s.dm := by
  unfold State.setRamp; split <;> cases r <;> rfl
@[simp] theorem State.setRamp_pm (r : Ramp) (v : Byte) : (s.setRamp r v).pm = s.pm := by
  unfold State.setRamp; split <;> cases r <;> rfl
@[simp] theorem State.setRamp_irqInhibit (r : Ramp) (v : Byte) : (s.setRamp r v).irqInhibit = s.irqInhibit := by
  unfold State.setRamp; split <;> cases r <;> rfl
@[simp] theorem State.setRamp_sleeping (r : Ramp) (v : Byte) : (s.setRamp r v).sleeping = s.sleeping := by
  unfold State.setRamp; split <;> cases r <;> rfl
@[simp] theorem State.setRamp_pending (r : Ramp) (v : Byte) : (s.setRamp r v).pending = s.pending := by
  unfold State.setRamp; split <;> cases r <;> rfl
@[simp] theorem State.setRamp_inputs (r : Ramp) (v : Byte) : (s.setRamp r v).inputs = s.inputs := by
  unfold State.setRamp; split <;> cases r <;> rfl
@[simp] theorem State.setRamp_draws (r : Ramp) (v : Byte) : (s.setRamp r v).draws = s.draws := by
  unfold State.setRamp; split <;> cases r <;> rfl
@[simp] theorem State.setRamp_trace (r : Ramp) (v : Byte) : (s.setRamp r v).trace = s.trace := by
  unfold State.setRamp; split <;> cases r <;> rfl

/-! ### `setEind` -/

@[simp] theorem State.setEind_cfg (v : Byte) : (s.setEind v).cfg = s.cfg := by
  unfold State.setEind; split <;> rfl
@[simp] theorem State.setEind_regs (v : Byte) : (s.setEind v).regs = s.regs := by
  unfold State.setEind; split <;> rfl
@[simp] theorem State.setEind_pc (v : Byte) : (s.setEind v).pc = s.pc := by
  unfold State.setEind; split <;> rfl
@[simp] theorem State.setEind_sreg (v : Byte) : (s.setEind v).sreg = s.sreg := by
  unfold State.setEind; split <;> rfl
@[simp] theorem State.setEind_sp (v : Byte) : (s.setEind v).sp = s.sp := by
  unfold State.setEind; split <;> rfl
@[simp] theorem State.setEind_hwStack (v : Byte) : (s.setEind v).hwStack = s.hwStack := by
  unfold State.setEind; split <;> rfl
@[simp] theorem State.setEind_rampd (v : Byte) : (s.setEind v).rampd = s.rampd := by
  unfold State.setEind; split <;> rfl
@[simp] theorem State.setEind_rampx (v : Byte) : (s.setEind v).rampx = s.rampx := by
  unfold State.setEind; split <;> rfl
@[simp] theorem State.setEind_rampy (v : Byte) : (s.setEind v).rampy = s.rampy := by
  unfold State.setEind; split <;> rfl
@[simp] theorem State.setEind_rampz (v : Byte) : (s.setEind v).rampz = s.rampz := by
  unfold State.setEind; split <;> rfl
@[simp] theorem State.setEind_dm (v : Byte) : (s.setEind v).dm = s.dm := by
  unfold State.setEind; split <;> rfl
@[simp] theorem State.setEind_pm (v : Byte) : (s.setEind v).pm = s.pm := by
  unfold State.setEind; split <;> rfl
@[simp] theorem State.setEind_irqInhibit (v : Byte) : (s.setEind v).irqInhibit = s.irqInhibit := by
  unfold State.setEind; split <;> rfl
@[simp] theorem State.setEind_sleeping (v : Byte) : (s.setEind v).sleeping = s.sleeping := by
  unfold State.setEind; split <;> rfl
@[simp] theorem State.setEind_pending (v : Byte) : (s.setEind v).pending = s.pending := by
  unfold State.setEind; split <;> rfl
@[simp] theorem State.setEind_inputs (v : Byte) : (s.setEind v).inputs = s.inputs := by
  unfold State.setEind; split <;> rfl
@[simp] theorem State.setEind_draws (v : Byte) : (s.setEind v).draws = s.draws := by
  unfold State.setEind; split <;> rfl
@[simp] theorem State.setEind_trace (v : Byte) : (s.setEind v).trace = s.trace := by
  unfold State.setEind; split <;> rfl

@[simp] theorem State.setEind_eind (v : Byte) :
    (s.setEind v).eind = if s.cfg.hasEind then lowBits s.cfg.eindBits v else s.eind := by
  unfold State.setEind; split <;> rfl

@[simp] theorem State.setRamp_reg (r : Ramp) (v : Byte) (x : Reg) : (s.setRamp r v).reg x = s.reg x := by
  simp [State.reg]

@[simp] theorem State.setRamp_rampRaw (r q : Ramp) (v : Byte) :
    (s.setRamp r v).rampRaw q =
      if q = r ∧ r.present s.cfg = true then lowBits s.cfg.rampBits v else s.rampRaw q := by
  unfold State.setRamp
  by_cases h : r.present s.cfg = true
  · simp only [h, if_true]; cases r <;> cases q <;> simp [State.rampRaw]
  · simp [h]

/-! ### `ptrSet` -/

@[simp] theorem State.ptrSet_cfg (p : Ptr) (v : DataAddr) : (s.ptrSet p v).cfg = s.cfg := by
  simp [State.ptrSet]
@[simp] theorem State.ptrSet_pc (p : Ptr) (v : DataAddr) : (s.ptrSet p v).pc = s.pc := by
  simp [State.ptrSet]
@[simp] theorem State.ptrSet_sreg (p : Ptr) (v : DataAddr) : (s.ptrSet p v).sreg = s.sreg := by
  simp [State.ptrSet]
@[simp] theorem State.ptrSet_sp (p : Ptr) (v : DataAddr) : (s.ptrSet p v).sp = s.sp := by
  simp [State.ptrSet]
@[simp] theorem State.ptrSet_hwStack (p : Ptr) (v : DataAddr) : (s.ptrSet p v).hwStack = s.hwStack := by
  simp [State.ptrSet]
@[simp] theorem State.ptrSet_eind (p : Ptr) (v : DataAddr) : (s.ptrSet p v).eind = s.eind := by
  simp [State.ptrSet]
@[simp] theorem State.ptrSet_dm (p : Ptr) (v : DataAddr) : (s.ptrSet p v).dm = s.dm := by
  simp [State.ptrSet]
@[simp] theorem State.ptrSet_pm (p : Ptr) (v : DataAddr) : (s.ptrSet p v).pm = s.pm := by
  simp [State.ptrSet]
@[simp] theorem State.ptrSet_irqInhibit (p : Ptr) (v : DataAddr) : (s.ptrSet p v).irqInhibit = s.irqInhibit := by
  simp [State.ptrSet]
@[simp] theorem State.ptrSet_sleeping (p : Ptr) (v : DataAddr) : (s.ptrSet p v).sleeping = s.sleeping := by
  simp [State.ptrSet]
@[simp] theorem State.ptrSet_pending (p : Ptr) (v : DataAddr) : (s.ptrSet p v).pending = s.pending := by
  simp [State.ptrSet]
@[simp] theorem State.ptrSet_inputs (p : Ptr) (v : DataAddr) : (s.ptrSet p v).inputs = s.inputs := by
  simp [State.ptrSet]
@[simp] theorem State.ptrSet_draws (p : Ptr) (v : DataAddr) : (s.ptrSet p v).draws = s.draws := by
  simp [State.ptrSet]
@[simp] theorem State.ptrSet_trace (p : Ptr) (v : DataAddr) : (s.ptrSet p v).trace = s.trace := by
  simp [State.ptrSet]

/-- All that `PtrSet` writes: the pair, and the RAMP registers (42_transfer.md R265). -/
theorem State.ptrSet_frame (p : Ptr) (v : DataAddr) : s.ptrSet p v = { s with
    regs := (s.ptrSet p v).regs, rampd := (s.ptrSet p v).rampd, rampx := (s.ptrSet p v).rampx,
    rampy := (s.ptrSet p v).rampy, rampz := (s.ptrSet p v).rampz } := by
  by_cases h : p.ramp.present s.cfg = true <;> cases p <;> simp_all [State.ptrSet, State.setRamp, State.setPair,
    State.setReg, Ptr.ramp]

/-! ### `finish` -/

@[simp] theorem State.finish_cfg (d : Reg) (v sr : Byte) : (s.finish d v sr).cfg = s.cfg := rfl
@[simp] theorem State.finish_sp (d : Reg) (v sr : Byte) : (s.finish d v sr).sp = s.sp := rfl
@[simp] theorem State.finish_hwStack (d : Reg) (v sr : Byte) : (s.finish d v sr).hwStack = s.hwStack := rfl
@[simp] theorem State.finish_rampd (d : Reg) (v sr : Byte) : (s.finish d v sr).rampd = s.rampd := rfl
@[simp] theorem State.finish_rampx (d : Reg) (v sr : Byte) : (s.finish d v sr).rampx = s.rampx := rfl
@[simp] theorem State.finish_rampy (d : Reg) (v sr : Byte) : (s.finish d v sr).rampy = s.rampy := rfl
@[simp] theorem State.finish_rampz (d : Reg) (v sr : Byte) : (s.finish d v sr).rampz = s.rampz := rfl
@[simp] theorem State.finish_eind (d : Reg) (v sr : Byte) : (s.finish d v sr).eind = s.eind := rfl
@[simp] theorem State.finish_dm (d : Reg) (v sr : Byte) : (s.finish d v sr).dm = s.dm := rfl
@[simp] theorem State.finish_pm (d : Reg) (v sr : Byte) : (s.finish d v sr).pm = s.pm := rfl
@[simp] theorem State.finish_irqInhibit (d : Reg) (v sr : Byte) : (s.finish d v sr).irqInhibit = s.irqInhibit := rfl
@[simp] theorem State.finish_sleeping (d : Reg) (v sr : Byte) : (s.finish d v sr).sleeping = s.sleeping := rfl
@[simp] theorem State.finish_pending (d : Reg) (v sr : Byte) : (s.finish d v sr).pending = s.pending := rfl
@[simp] theorem State.finish_inputs (d : Reg) (v sr : Byte) : (s.finish d v sr).inputs = s.inputs := rfl
@[simp] theorem State.finish_draws (d : Reg) (v sr : Byte) : (s.finish d v sr).draws = s.draws := rfl
@[simp] theorem State.finish_trace (d : Reg) (v sr : Byte) : (s.finish d v sr).trace = s.trace := rfl

/-! ### `finishFlags` -/

@[simp] theorem State.finishFlags_cfg (sr : Byte) : (s.finishFlags sr).cfg = s.cfg := rfl
@[simp] theorem State.finishFlags_regs (sr : Byte) : (s.finishFlags sr).regs = s.regs := rfl
@[simp] theorem State.finishFlags_sp (sr : Byte) : (s.finishFlags sr).sp = s.sp := rfl
@[simp] theorem State.finishFlags_hwStack (sr : Byte) : (s.finishFlags sr).hwStack = s.hwStack := rfl
@[simp] theorem State.finishFlags_rampd (sr : Byte) : (s.finishFlags sr).rampd = s.rampd := rfl
@[simp] theorem State.finishFlags_rampx (sr : Byte) : (s.finishFlags sr).rampx = s.rampx := rfl
@[simp] theorem State.finishFlags_rampy (sr : Byte) : (s.finishFlags sr).rampy = s.rampy := rfl
@[simp] theorem State.finishFlags_rampz (sr : Byte) : (s.finishFlags sr).rampz = s.rampz := rfl
@[simp] theorem State.finishFlags_eind (sr : Byte) : (s.finishFlags sr).eind = s.eind := rfl
@[simp] theorem State.finishFlags_dm (sr : Byte) : (s.finishFlags sr).dm = s.dm := rfl
@[simp] theorem State.finishFlags_pm (sr : Byte) : (s.finishFlags sr).pm = s.pm := rfl
@[simp] theorem State.finishFlags_irqInhibit (sr : Byte) : (s.finishFlags sr).irqInhibit = s.irqInhibit := rfl
@[simp] theorem State.finishFlags_sleeping (sr : Byte) : (s.finishFlags sr).sleeping = s.sleeping := rfl
@[simp] theorem State.finishFlags_pending (sr : Byte) : (s.finishFlags sr).pending = s.pending := rfl
@[simp] theorem State.finishFlags_inputs (sr : Byte) : (s.finishFlags sr).inputs = s.inputs := rfl
@[simp] theorem State.finishFlags_draws (sr : Byte) : (s.finishFlags sr).draws = s.draws := rfl
@[simp] theorem State.finishFlags_trace (sr : Byte) : (s.finishFlags sr).trace = s.trace := rfl

/-! ### `finishPair` -/

@[simp] theorem State.finishPair_cfg (p : Reg) (v : BitVec 16) (sr : Byte) : (s.finishPair p v sr).cfg = s.cfg := rfl
@[simp] theorem State.finishPair_sp (p : Reg) (v : BitVec 16) (sr : Byte) : (s.finishPair p v sr).sp = s.sp := rfl
@[simp] theorem State.finishPair_hwStack (p : Reg) (v : BitVec 16) (sr : Byte) : (s.finishPair p v sr).hwStack = s.hwStack := rfl
@[simp] theorem State.finishPair_rampd (p : Reg) (v : BitVec 16) (sr : Byte) : (s.finishPair p v sr).rampd = s.rampd := rfl
@[simp] theorem State.finishPair_rampx (p : Reg) (v : BitVec 16) (sr : Byte) : (s.finishPair p v sr).rampx = s.rampx := rfl
@[simp] theorem State.finishPair_rampy (p : Reg) (v : BitVec 16) (sr : Byte) : (s.finishPair p v sr).rampy = s.rampy := rfl
@[simp] theorem State.finishPair_rampz (p : Reg) (v : BitVec 16) (sr : Byte) : (s.finishPair p v sr).rampz = s.rampz := rfl
@[simp] theorem State.finishPair_eind (p : Reg) (v : BitVec 16) (sr : Byte) : (s.finishPair p v sr).eind = s.eind := rfl
@[simp] theorem State.finishPair_dm (p : Reg) (v : BitVec 16) (sr : Byte) : (s.finishPair p v sr).dm = s.dm := rfl
@[simp] theorem State.finishPair_pm (p : Reg) (v : BitVec 16) (sr : Byte) : (s.finishPair p v sr).pm = s.pm := rfl
@[simp] theorem State.finishPair_irqInhibit (p : Reg) (v : BitVec 16) (sr : Byte) : (s.finishPair p v sr).irqInhibit = s.irqInhibit := rfl
@[simp] theorem State.finishPair_sleeping (p : Reg) (v : BitVec 16) (sr : Byte) : (s.finishPair p v sr).sleeping = s.sleeping := rfl
@[simp] theorem State.finishPair_pending (p : Reg) (v : BitVec 16) (sr : Byte) : (s.finishPair p v sr).pending = s.pending := rfl
@[simp] theorem State.finishPair_inputs (p : Reg) (v : BitVec 16) (sr : Byte) : (s.finishPair p v sr).inputs = s.inputs := rfl
@[simp] theorem State.finishPair_draws (p : Reg) (v : BitVec 16) (sr : Byte) : (s.finishPair p v sr).draws = s.draws := rfl
@[simp] theorem State.finishPair_trace (p : Reg) (v : BitVec 16) (sr : Byte) : (s.finishPair p v sr).trace = s.trace := rfl

/-! ### `branchIf` -/

@[simp] theorem State.branchIf_cfg (c : Bool) (k : BitVec 7) : (s.branchIf c k).cfg = s.cfg := rfl
@[simp] theorem State.branchIf_regs (c : Bool) (k : BitVec 7) : (s.branchIf c k).regs = s.regs := rfl
@[simp] theorem State.branchIf_sreg (c : Bool) (k : BitVec 7) : (s.branchIf c k).sreg = s.sreg := rfl
@[simp] theorem State.branchIf_sp (c : Bool) (k : BitVec 7) : (s.branchIf c k).sp = s.sp := rfl
@[simp] theorem State.branchIf_hwStack (c : Bool) (k : BitVec 7) : (s.branchIf c k).hwStack = s.hwStack := rfl
@[simp] theorem State.branchIf_rampd (c : Bool) (k : BitVec 7) : (s.branchIf c k).rampd = s.rampd := rfl
@[simp] theorem State.branchIf_rampx (c : Bool) (k : BitVec 7) : (s.branchIf c k).rampx = s.rampx := rfl
@[simp] theorem State.branchIf_rampy (c : Bool) (k : BitVec 7) : (s.branchIf c k).rampy = s.rampy := rfl
@[simp] theorem State.branchIf_rampz (c : Bool) (k : BitVec 7) : (s.branchIf c k).rampz = s.rampz := rfl
@[simp] theorem State.branchIf_eind (c : Bool) (k : BitVec 7) : (s.branchIf c k).eind = s.eind := rfl
@[simp] theorem State.branchIf_dm (c : Bool) (k : BitVec 7) : (s.branchIf c k).dm = s.dm := rfl
@[simp] theorem State.branchIf_pm (c : Bool) (k : BitVec 7) : (s.branchIf c k).pm = s.pm := rfl
@[simp] theorem State.branchIf_irqInhibit (c : Bool) (k : BitVec 7) : (s.branchIf c k).irqInhibit = s.irqInhibit := rfl
@[simp] theorem State.branchIf_sleeping (c : Bool) (k : BitVec 7) : (s.branchIf c k).sleeping = s.sleeping := rfl
@[simp] theorem State.branchIf_pending (c : Bool) (k : BitVec 7) : (s.branchIf c k).pending = s.pending := rfl
@[simp] theorem State.branchIf_inputs (c : Bool) (k : BitVec 7) : (s.branchIf c k).inputs = s.inputs := rfl
@[simp] theorem State.branchIf_draws (c : Bool) (k : BitVec 7) : (s.branchIf c k).draws = s.draws := rfl
@[simp] theorem State.branchIf_trace (c : Bool) (k : BitVec 7) : (s.branchIf c k).trace = s.trace := rfl

@[simp] theorem State.finish_sreg (d : Reg) (v sr : Byte) : (s.finish d v sr).sreg = sr := rfl
@[simp] theorem State.finish_pc (d : Reg) (v sr : Byte) : (s.finish d v sr).pc = s.pcPlus 1 := rfl
@[simp] theorem State.finish_reg (d : Reg) (v sr : Byte) (x : Reg) :
    (s.finish d v sr).reg x = if x = d then v else s.reg x := State.reg_setReg s d x v
@[simp] theorem State.finishFlags_sreg (sr : Byte) : (s.finishFlags sr).sreg = sr := rfl
@[simp] theorem State.finishFlags_pc (sr : Byte) : (s.finishFlags sr).pc = s.pcPlus 1 := rfl
@[simp] theorem State.finishFlags_reg (sr : Byte) (x : Reg) : (s.finishFlags sr).reg x = s.reg x := rfl
@[simp] theorem State.finishPair_sreg (p : Reg) (v : BitVec 16) (sr : Byte) : (s.finishPair p v sr).sreg = sr := rfl
@[simp] theorem State.finishPair_pc (p : Reg) (v : BitVec 16) (sr : Byte) :
    (s.finishPair p v sr).pc = s.pcPlus 1 := rfl
@[simp] theorem State.finishPair_reg (p : Reg) (v : BitVec 16) (sr : Byte) (x : Reg) :
    (s.finishPair p v sr).reg x = (s.setPair p v).reg x := rfl

/-- A pair write reads back in its two registers. -/
theorem State.reg_setPair (p x : Reg) (v : BitVec 16) :
    (s.setPair p v).reg x = if x = p + 1 then highByte v else if x = p then lowByte v else s.reg x := by
  unfold State.setPair
  rw [State.reg_setReg, State.reg_setReg]

/-- A pair reads as it was last written. -/
theorem State.pair_setPair (p : Reg) (v : BitVec 16) : (s.setPair p v).pair p = v := by
  have h : p ≠ p + 1 := by bv_omega
  unfold State.pair
  rw [State.reg_setPair, State.reg_setPair]
  simp only [if_true, h, if_false, highByte, lowByte]
  ext i hi
  simp only [BitVec.getElem_append, BitVec.getElem_extractLsb']
  split
  · simp [BitVec.getLsbD_eq_getElem hi]
  · rename_i h8
    rw [show 8 + (i - 8) = i by omega]
    simp [BitVec.getLsbD_eq_getElem hi]

end Sys2Proof.Machine
end

