-- ==== Sys2Proof/Laws/Ops.lean ====
section
/-! SUPPORT. For each shared operation, one lemma that says once everything it can do. The statements' provers cite
these instead of unfolding the operations. -/

namespace Sys2Proof.Machine

/-! ## Outcomes -/

@[simp] theorem Res.toOutcome_ok (s : State) : Res.toOutcome (.ok s) = .next s := rfl
@[simp] theorem Res.toOutcome_error (f : Fault) : Res.toOutcome (.error f) = .fault f := rfl

/-- An instruction the variant has does what its body says. -/
theorem whenPresent_present {i : Instr} {s : State} {body : Res State} (h : i.presentOn s.cfg = true) :
    whenPresent i s body = body.toOutcome := by
  simp [whenPresent, h]

/-- An instruction the variant lacks is a reserved word. -/
theorem whenPresent_absent {i : Instr} {s : State} {body : Res State} (h : i.presentOn s.cfg = false) :
    whenPresent i s body = .fault (.reservedInstruction i.firstWord) := by
  simp [whenPresent, h]

/-- A next state comes from an instruction the variant has, whose body gave it. -/
theorem whenPresent_next {i : Instr} {s t : State} {body : Res State} (h : whenPresent i s body = .next t) :
    i.presentOn s.cfg = true ∧ body = .ok t := by
  unfold whenPresent at h
  split at h
  · rename_i hp
    cases body with
    | ok u => simp at h; exact ⟨hp, by rw [h]⟩
    | error f => simp at h
  · cases h

/-- `Except.map` answers with a value only from a value. -/
theorem Res.map_ok {α β : Type} {r : Res α} {f : α → β} {b : β} (h : r.map f = .ok b) :
    ∃ a, r = .ok a ∧ f a = b := by
  cases r with
  | ok a => exact ⟨a, rfl, by simpa [Except.map] using h⟩
  | error e => simp [Except.map] at h

/-! ## Bits -/

theorem lowBits_toNat_lt {w n : Nat} (v : BitVec w) : (lowBits n v).toNat < 2 ^ n := by
  unfold lowBits
  rw [BitVec.toNat_ofNat]
  exact lt_of_le_of_lt (Nat.mod_le _ _) (Nat.mod_lt _ (by positivity))

theorem lowBits_of_lt {w n : Nat} {v : BitVec w} (h : v.toNat < 2 ^ n) : lowBits n v = v := by
  unfold lowBits
  rw [Nat.mod_eq_of_lt h]
  exact BitVec.ofNat_toNat w v ▸ by simp

/-- The pc an instruction leaves lies in PC_BITS bits. -/
theorem truncPc_lt (c : Cfg) (v : ProgAddr) : (truncPc c v).toNat < 2 ^ c.pcBits := lowBits_toNat_lt v

/-! ## Data memory -/

/-- Everything `Cfg.valid` says of the data address map, map by map (20_memory.md R75 to R78, R83). -/
theorem Cfg.valid_maps {c : Cfg} (hv : c.valid = true) :
    (c.regsInDataSpace = true → c.xmegaMap = false ∧ c.isTiny = false ∧
      (c.core ≠ .avr1 → c.hasExtIo = false → ∀ r ∈ c.platformRegions, 0xFF < r.first)) ∧
    (c.xmegaMap = true → c.regsInDataSpace = false ∧ c.isTiny = false ∧ c.ramStart = 0x2000 ∧
      ∃ r ∈ c.platformRegions, r.first ≤ 0x1000 ∧ 0x1FFF ≤ r.last) ∧
    (c.core = .avrTiny → c.regsInDataSpace = false ∧ c.xmegaMap = false ∧ c.ramStart = 0x40 ∧
      c.ramEnd < c.tinyFlashDataBase ∧ ∀ r ∈ c.platformRegions,
        r.writable = false ∨ r.last < c.tinyFlashDataBase ∨ c.tinyFlashDataBase + 2 * c.flashWords ≤ r.first) ∧
    (c.core = .avr1 → c.regsInDataSpace = true ∧ c.ramEnd < c.ramStart ∧ c.platformRegions = []) := by
  simp only [Cfg.valid, Cfg.coreValid, Cfg.mapValid, Bool.and_eq_true, beq_iff_eq] at hv
  obtain ⟨⟨⟨hc, -⟩, -⟩, hm⟩ := hv
  have hx : c.xmegaMap = c.isXmega := hc.1.1.1.1.1.1.1.1.1.2
  have hr : c.regsInDataSpace = (!c.isXmega && !c.isTiny) := hc.1.1.1.1.1.1.2
  clear hc
  rw [hx, hr]
  cases hcore : c.core <;>
    simp only [hcore, Cfg.isXmega, Cfg.isTiny, Bool.and_eq_true, Bool.or_eq_true, decide_eq_true_eq, beq_iff_eq,
      Bool.not_eq_true', List.all_eq_true, List.any_eq_true, List.isEmpty_iff, or_assoc, and_assoc] at hm ⊢ <;>
    simp [hm]
  all_goals first
    | exact fun h => hm.resolve_left (by simp [h])
    | exact hm.2.2

/-- An address of the I/O window is the data address of the I/O address it stands for. -/
theorem ioDataAddr_of_region {c : Cfg} {addr : DataAddr} {a : BitVec 6} (h : regionOf c addr = .io a) :
    ioDataAddr c a = addr := by
  unfold regionOf at h
  dsimp only at h
  split at h
  · cases h
  · split at h
    · rename_i hw
      simp only [Bool.and_eq_true, decide_eq_true_eq] at hw
      cases h
      unfold ioDataAddr
      apply BitVec.eq_of_toNat_eq
      have := addr.isLt
      simp only [BitVec.toNat_ofNat]
      omega
    · split at h
      · cases h
      · split at h <;> cases h

/-- `MemRead` answers exactly with the byte the address reads as. -/
theorem State.memRead_ok_iff {s t : State} {addr : DataAddr} {v : Byte} :
    s.memRead addr = .ok (v, t) ↔ ReadsAs s addr v ∧ t = { s with draws := drawsAfterRead s addr } := by
  unfold State.memRead ReadsAs drawsAfterRead answeredByPlatform
  cases hr : regionOf s.cfg addr with
  | register d => simp only [Except.ok.injEq, Prod.mk.injEq]; constructor <;> rintro ⟨rfl, rfl⟩ <;> exact ⟨rfl, rfl⟩
  | io a =>
    have ha := ioDataAddr_of_region hr
    unfold State.ioRead
    cases ht : ioTarget s.cfg a with
    | some r => simp [ht]; constructor <;> rintro ⟨rfl, rfl⟩ <;> exact ⟨rfl, rfl⟩
    | none =>
      simp [ht, State.platformRead, ha]
      constructor <;> rintro ⟨rfl, rfl⟩ <;> exact ⟨rfl, rfl⟩
  | extIo =>
    simp only [State.platformRead, Except.ok.injEq, Prod.mk.injEq]
    constructor <;> rintro ⟨rfl, rfl⟩ <;> exact ⟨rfl, rfl⟩
  | ram =>
    dsimp only
    cases hm : Memory.read .data s.dm addr.toNat with
    | none => simp
    | some x =>
      simp only [Except.ok.injEq, Prod.mk.injEq, Option.some.injEq]
      constructor <;> rintro ⟨rfl, rfl⟩ <;> exact ⟨rfl, rfl⟩
  | outer =>
    dsimp only
    by_cases hf : s.cfg.inFlashWindow addr.toNat = true
    · have hlt : (addr.toNat - s.cfg.tinyFlashDataBase) / 2 < s.cfg.flashWords := by
        simp only [Cfg.inFlashWindow, Bool.and_eq_true, decide_eq_true_eq] at hf
        omega
      simp only [hf, if_true, State.progByte, hlt, Except.map, Except.ok.injEq, Prod.mk.injEq, Bool.not_true,
        Bool.false_and, Bool.false_eq_true, if_false]
      constructor <;> rintro ⟨rfl, rfl⟩ <;> exact ⟨rfl, rfl⟩
    · by_cases hp : s.cfg.inPlatform addr.toNat = true
      · simp [hf, hp, State.platformRead]
        constructor <;> rintro ⟨rfl, rfl⟩ <;> exact ⟨rfl, rfl⟩
      · simp [hf, hp]

/-- `MemRead` stops exactly as the address says. -/
theorem State.memRead_error_iff {s : State} {addr : DataAddr} {f : Fault} :
    s.memRead addr = .error f ↔ ReadStops s addr f := by
  unfold State.memRead ReadStops
  cases hr : regionOf s.cfg addr with
  | register d => simp
  | io a => simp
  | extIo => simp
  | ram =>
    dsimp only
    cases hm : Memory.read .data s.dm addr.toNat with
    | none => simp [eq_comm]
    | some x => simp
  | outer =>
    dsimp only
    by_cases hf : s.cfg.inFlashWindow addr.toNat = true
    · have hlt : (addr.toNat - s.cfg.tinyFlashDataBase) / 2 < s.cfg.flashWords := by
        simp only [Cfg.inFlashWindow, Bool.and_eq_true, decide_eq_true_eq] at hf
        omega
      simp [hf, State.progByte, hlt, Except.map]
    · by_cases hp : s.cfg.inPlatform addr.toNat = true
      · simp [hf, hp]
      · simp [hf, hp, eq_comm]

/-- A write of a CPU register, as `ByteStored` says it. -/
theorem State.ioWrite_eq (s : State) (a : BitVec 6) (v : Byte) :
    s.ioWrite a v =
      match ioTarget s.cfg a with
      | some .sreg => { s with sreg := v }
      | some .sph => { s with sp := lowBits s.cfg.spBits (v ++ lowByte s.spVal) }
      | some .spl =>
        { s with sp := lowBits s.cfg.spBits (highByte s.spVal ++ v), irqInhibit := s.irqInhibit || s.cfg.isXmega }
      | some .eind => s.setEind v
      | some (.ramp r) => s.setRamp r v
      | none => { s with trace := .write (ioDataAddr s.cfg a) v :: s.trace } := by
  unfold State.ioWrite
  cases ht : ioTarget s.cfg a with
  | none => rfl
  | some r =>
    cases r with
    | spl =>
      unfold State.cpuWrite
      dsimp only
      by_cases hx : s.cfg.isXmega = true
      · simp [hx, State.setSp, State.setIrqInhibit]
      · simp [hx, State.setSp]
    | _ => rfl

/-- `MemWrite` answers with the state after the byte is stored. -/
theorem State.memWrite_ok {s t : State} {addr : DataAddr} {v : Byte} (h : s.memWrite addr v = .ok t) :
    Storable s.cfg addr ∧ ByteStored s t addr v := by
  unfold State.memWrite at h
  unfold Storable ByteStored
  cases hr : regionOf s.cfg addr with
  | register d =>
    rw [hr] at h; cases h
    refine ⟨by simp, fun _ _ => rfl, fun _ => rfl, by simp, fun x hx => ?_, rfl⟩
    exact State.reg_setReg_other s v (by simpa using hx)
  | io a =>
    rw [hr] at h
    simp only [Except.ok.injEq] at h
    have ha := ioDataAddr_of_region hr
    subst h
    rw [State.ioWrite_eq]
    cases ht : ioTarget s.cfg a with
    | none => exact ⟨by simp, fun _ _ => rfl, fun _ => rfl, by simp [ht, ha]⟩
    | some r =>
      cases r with
      | eind => exact ⟨by simp, fun _ _ => by simp, fun _ => by simp [State.pmByte], by simp [ht]⟩
      | ramp r => exact ⟨by simp, fun _ _ => by simp, fun _ => by simp [State.pmByte], by simp [ht]⟩
      | _ => exact ⟨by simp, fun _ _ => rfl, fun _ => rfl, by simp [ht]⟩
  | extIo => rw [hr] at h; cases h; exact ⟨by simp, fun _ _ => rfl, fun _ => rfl, rfl⟩
  | ram =>
    rw [hr] at h; cases h
    exact ⟨by simp, fun a ha => Memory.read_write_other .data s.dm v ha, fun _ => rfl, by simp, rfl⟩
  | outer =>
    rw [hr] at h
    dsimp only at h
    split at h
    · rename_i hw; cases h; exact ⟨fun _ => hw, fun _ _ => rfl, fun _ => rfl, rfl⟩
    · cases h

/-- `MemWrite` stores wherever there is somewhere to store. -/
theorem State.memWrite_of_storable {s : State} {addr : DataAddr} (v : Byte) (h : Storable s.cfg addr) :
    ∃ t, s.memWrite addr v = .ok t := by
  unfold State.memWrite
  unfold Storable at h
  cases hr : regionOf s.cfg addr with
  | outer => simp [h hr]
  | _ => exact ⟨_, rfl⟩

/-- `MemWrite` stops where there is nowhere to store. -/
theorem State.memWrite_of_not_storable {s : State} {addr : DataAddr} (v : Byte) (h : ¬ Storable s.cfg addr) :
    s.memWrite addr v = .error (.dataAccessOutOfRange addr) := by
  unfold Storable at h
  push Not at h
  obtain ⟨hr, hw⟩ := h
  unfold State.memWrite
  simp [hr, hw]

/-- A stored byte leaves the configuration, the pc, program memory, the hardware stack, the platform's inputs and its
draws as they were. -/
theorem ByteStored.kept {s u : State} {addr : DataAddr} {v : Byte} (h : ByteStored s u addr v) :
    u.cfg = s.cfg ∧ u.pc = s.pc ∧ u.pm = s.pm ∧ u.hwStack = s.hwStack ∧ u.sleeping = s.sleeping ∧
      u.pending = s.pending ∧ u.inputs = s.inputs ∧ u.draws = s.draws := by
  obtain ⟨-, -, h⟩ := h
  split at h
  · rw [h.2.2]; simp
  · split at h <;> (rw [h]; simp)
  · rw [h]; simp
  · rw [h.2]; simp
  · rw [h]; simp

/-! ## Stack -/

/-- `Push8` stores the byte at SP, then lowers SP. -/
theorem State.push8_ok {s t : State} {v : Byte} (h : s.push8 v = .ok t) :
    ∃ u, ByteStored s u (stackAddr s.spVal) v ∧ t = u.setSp (s.spVal - 1) := by
  obtain ⟨u, hu, rfl⟩ := Res.map_ok h
  exact ⟨u, (State.memWrite_ok hu).2, rfl⟩

/-- `Pop8` raises SP, then reads at it. -/
theorem State.pop8_ok {s t : State} {v : Byte} (h : s.pop8 = .ok (v, t)) :
    let u := s.setSp (s.spVal + 1)
    ReadsAs u (stackAddr u.spVal) v ∧ t = { u with draws := drawsAfterRead u (stackAddr u.spVal) } :=
  State.memRead_ok_iff.1 h

/-- `PushPC` on AVR1. -/
theorem State.pushPc_hardware {s : State} (v : ProgAddr) (h : s.cfg.stackKind = .hardware3) :
    s.pushPc v =
      if 3 ≤ s.hwStack.length then .error .hardwareStackOverflow else .ok (s.setHwStack (v :: s.hwStack)) := by
  simp [State.pushPc, h]

/-- `PushPC` on the data stack: two bytes, or three, low byte first. -/
theorem State.pushPc_data {s t : State} {v : ProgAddr} (h : s.cfg.stackKind = .dataSpace)
    (ht : s.pushPc v = .ok t) :
    ∃ a b, s.push8 (v.extractLsb' 0 8) = .ok a ∧ a.push8 (v.extractLsb' 8 8) = .ok b ∧
      (if b.cfg.pcStackBytes = 3 then b.push8 (v.extractLsb' 16 8) else .ok b) = .ok t := by
  simp only [State.pushPc, h, bind, Except.bind] at ht
  cases ha : s.push8 (v.extractLsb' 0 8) with
  | error e => simp [ha] at ht
  | ok a =>
    simp only [ha] at ht
    cases hb : a.push8 (v.extractLsb' 8 8) with
    | error e => simp [hb] at ht
    | ok b => simp only [hb] at ht; exact ⟨a, b, rfl, hb, ht⟩

/-! ## Interrupts and boundaries -/

/-- Interrupt entry: a push, the I flag, the vector, the event. -/
theorem State.takeInterrupt_ok {s t : State} {n : Nat} (h : s.takeInterrupt n = .ok t) :
    ∃ u, (s.setSleeping false).pushPc s.pc = .ok u ∧
      t = ((if u.cfg.isXmega then u else u.setSreg (withBit u.sreg bitI false)).setPc
        (vectorAddr (if u.cfg.isXmega then u else u.setSreg (withBit u.sreg bitI false)).cfg n)).emit (.irqTaken n) := by
  obtain ⟨u, hu, rfl⟩ := Res.map_ok h
  exact ⟨u, hu, rfl⟩

/-- A boundary changes the platform's inputs and the pending set only. -/
theorem State.boundary_eq (s : State) :
    s.boundary.1 = { s with inputs := s.boundary.1.inputs, pending := s.boundary.1.pending } := by
  unfold State.boundary; split <;> rfl

/-- With no source on the variant nothing is presented. -/
theorem presentedSources_of_no_source {c : Cfg} (h : c.nIrq = 0) (x : PlatformInput) : presentedSources c x = [] := by
  simp [presentedSources, isSource, h]
  intro a _ h1 h2
  omega

end Sys2Proof.Machine
end

