-- ==== Sys2Proof/Laws/PerInstr.lean ====
section
/-! SUPPORT. Laws made per instruction: family `Lengths`, one lemma per constructor of `Instr`. -/

namespace Sys2Proof.Laws

set_option Elab.async false

/-- A word lies in a row when its bits are the row's fixed bits. -/
theorem and_beq (m v w : Word) :
    (w &&& m == v) = (List.range 16).all fun i => (w.getLsbD i && m.getLsbD i) == v.getLsbD i := by
  rw [Bool.eq_iff_iff]
  simp only [beq_iff_eq, List.all_eq_true, List.mem_range]
  constructor
  · rintro rfl i hi; simp
  · intro h; exact BitVec.eq_of_getLsbD_eq fun i hi => by simpa using h i hi

/-- The two-word patterns, bit by bit. -/
theorem isTwoWord_bits (w : Word) : isTwoWord w =
    (w.getLsbD 15 && !w.getLsbD 14 && !w.getLsbD 13 && w.getLsbD 12 && !w.getLsbD 11 &&
      ((!w.getLsbD 10 && !w.getLsbD 3 && !w.getLsbD 2 && !w.getLsbD 1 && !w.getLsbD 0) ||
        (w.getLsbD 10 && !w.getLsbD 9 && w.getLsbD 3 && w.getLsbD 2))) := by
  unfold isTwoWord
  rw [and_beq, and_beq, and_beq, and_beq]
  simp only [List.range, List.range.loop, List.all_cons, List.all_nil]
  generalize w.getLsbD 0 = b0, w.getLsbD 1 = b1, w.getLsbD 2 = b2, w.getLsbD 3 = b3, w.getLsbD 9 = b9,
    w.getLsbD 10 = b10, w.getLsbD 11 = b11, w.getLsbD 12 = b12, w.getLsbD 13 = b13, w.getLsbD 14 = b14,
    w.getLsbD 15 = b15
  simp
  revert b0 b1 b2 b3 b9 b10 b11 b12 b13 b14 b15
  decide

/-- A word of one row is not a word of another whose fixed bits differ. -/
theorem row_apart {w m v : Word} (m' v' : Word) (h : inRow m v w = true) (hne : v &&& m' ≠ v' &&& m) :
    (w &&& m' == v') = false := by
  simp only [inRow, beq_iff_eq, beq_eq_false_iff_ne] at h ⊢
  rintro rfl
  exact hne (by rw [← h]; ac_rfl)

/-- A word of a row that is no two-word row's is the whole instruction. -/
theorem one_word {w m v : Word} (h : inRow m v w = true) (h1 : v &&& 0xFE0F ≠ 0x9000#16 &&& m)
    (h2 : v &&& 0xFE0F ≠ 0x9200#16 &&& m) (h3 : v &&& 0xFE0E ≠ 0x940C#16 &&& m)
    (h4 : v &&& 0xFE0E ≠ 0x940E#16 &&& m) : isTwoWord w = false := by
  simp only [isTwoWord, Bool.or_eq_false_iff]
  exact ⟨⟨⟨row_apart _ _ h h1, row_apart _ _ h h2⟩, row_apart _ _ h h3⟩, row_apart _ _ h h4⟩

/-- The first word of a well-formed instruction says whether a second one follows (30_encoding.md R110, R111). -/
def Lengths.Statement (i : Instr) : Prop := i.wellFormed = true → isTwoWord i.firstWord = i.secondWord.isSome

theorem Lengths.nop : Lengths.Statement .nop := fun _ => by decide
theorem Lengths.unlisted0000 (w : Word) : Lengths.Statement (.unlisted0000 w) := fun h =>
  one_word (m := 0xFF00) (v := 0x0000) (Bool.and_eq_true_iff.1 h).1 (by decide) (by decide) (by decide) (by decide)
theorem Lengths.movw (d : Reg) (r : Reg) : Lengths.Statement (.movw d r) := fun _ => by
  simp only [isTwoWord_bits, Instr.firstWord, Instr.secondWord, BitVec.getLsbD_append]
  simp
theorem Lengths.muls (d : Reg) (r : Reg) : Lengths.Statement (.muls d r) := fun _ => by
  simp only [isTwoWord_bits, Instr.firstWord, Instr.secondWord, BitVec.getLsbD_append]
  simp
theorem Lengths.mulsu (d : Reg) (r : Reg) : Lengths.Statement (.mulsu d r) := fun _ => by
  simp only [isTwoWord_bits, Instr.firstWord, Instr.secondWord, encMul3, BitVec.getLsbD_append]
  simp
theorem Lengths.fmul (d : Reg) (r : Reg) : Lengths.Statement (.fmul d r) := fun _ => by
  simp only [isTwoWord_bits, Instr.firstWord, Instr.secondWord, encMul3, BitVec.getLsbD_append]
  simp
theorem Lengths.fmuls (d : Reg) (r : Reg) : Lengths.Statement (.fmuls d r) := fun _ => by
  simp only [isTwoWord_bits, Instr.firstWord, Instr.secondWord, encMul3, BitVec.getLsbD_append]
  simp
theorem Lengths.fmulsu (d : Reg) (r : Reg) : Lengths.Statement (.fmulsu d r) := fun _ => by
  simp only [isTwoWord_bits, Instr.firstWord, Instr.secondWord, encMul3, BitVec.getLsbD_append]
  simp
theorem Lengths.cpc (d : Reg) (r : Reg) : Lengths.Statement (.cpc d r) := fun _ => by
  simp only [isTwoWord_bits, Instr.firstWord, Instr.secondWord, encRdRr, BitVec.getLsbD_append]
  simp
theorem Lengths.sbc (d : Reg) (r : Reg) : Lengths.Statement (.sbc d r) := fun _ => by
  simp only [isTwoWord_bits, Instr.firstWord, Instr.secondWord, encRdRr, BitVec.getLsbD_append]
  simp
theorem Lengths.add (d : Reg) (r : Reg) : Lengths.Statement (.add d r) := fun _ => by
  simp only [isTwoWord_bits, Instr.firstWord, Instr.secondWord, encRdRr, BitVec.getLsbD_append]
  simp
theorem Lengths.cpse (d : Reg) (r : Reg) : Lengths.Statement (.cpse d r) := fun _ => by
  simp only [isTwoWord_bits, Instr.firstWord, Instr.secondWord, encRdRr, BitVec.getLsbD_append]
  simp
theorem Lengths.cp (d : Reg) (r : Reg) : Lengths.Statement (.cp d r) := fun _ => by
  simp only [isTwoWord_bits, Instr.firstWord, Instr.secondWord, encRdRr, BitVec.getLsbD_append]
  simp
theorem Lengths.sub (d : Reg) (r : Reg) : Lengths.Statement (.sub d r) := fun _ => by
  simp only [isTwoWord_bits, Instr.firstWord, Instr.secondWord, encRdRr, BitVec.getLsbD_append]
  simp
theorem Lengths.adc (d : Reg) (r : Reg) : Lengths.Statement (.adc d r) := fun _ => by
  simp only [isTwoWord_bits, Instr.firstWord, Instr.secondWord, encRdRr, BitVec.getLsbD_append]
  simp
theorem Lengths.and (d : Reg) (r : Reg) : Lengths.Statement (.and d r) := fun _ => by
  simp only [isTwoWord_bits, Instr.firstWord, Instr.secondWord, encRdRr, BitVec.getLsbD_append]
  simp
theorem Lengths.eor (d : Reg) (r : Reg) : Lengths.Statement (.eor d r) := fun _ => by
  simp only [isTwoWord_bits, Instr.firstWord, Instr.secondWord, encRdRr, BitVec.getLsbD_append]
  simp
theorem Lengths.or (d : Reg) (r : Reg) : Lengths.Statement (.or d r) := fun _ => by
  simp only [isTwoWord_bits, Instr.firstWord, Instr.secondWord, encRdRr, BitVec.getLsbD_append]
  simp
theorem Lengths.mov (d : Reg) (r : Reg) : Lengths.Statement (.mov d r) := fun _ => by
  simp only [isTwoWord_bits, Instr.firstWord, Instr.secondWord, encRdRr, BitVec.getLsbD_append]
  simp
theorem Lengths.cpi (d : Reg) (k : Byte) : Lengths.Statement (.cpi d k) := fun _ => by
  simp only [isTwoWord_bits, Instr.firstWord, Instr.secondWord, encRdK, BitVec.getLsbD_append]
  simp
theorem Lengths.sbci (d : Reg) (k : Byte) : Lengths.Statement (.sbci d k) := fun _ => by
  simp only [isTwoWord_bits, Instr.firstWord, Instr.secondWord, encRdK, BitVec.getLsbD_append]
  simp
theorem Lengths.subi (d : Reg) (k : Byte) : Lengths.Statement (.subi d k) := fun _ => by
  simp only [isTwoWord_bits, Instr.firstWord, Instr.secondWord, encRdK, BitVec.getLsbD_append]
  simp
theorem Lengths.ori (d : Reg) (k : Byte) : Lengths.Statement (.ori d k) := fun _ => by
  simp only [isTwoWord_bits, Instr.firstWord, Instr.secondWord, encRdK, BitVec.getLsbD_append]
  simp
theorem Lengths.andi (d : Reg) (k : Byte) : Lengths.Statement (.andi d k) := fun _ => by
  simp only [isTwoWord_bits, Instr.firstWord, Instr.secondWord, encRdK, BitVec.getLsbD_append]
  simp
theorem Lengths.lddZ (d : Reg) (q : BitVec 6) : Lengths.Statement (.lddZ d q) := fun _ => by
  simp only [isTwoWord_bits, Instr.firstWord, Instr.secondWord, encLdd, BitVec.getLsbD_append]
  simp
theorem Lengths.lddY (d : Reg) (q : BitVec 6) : Lengths.Statement (.lddY d q) := fun _ => by
  simp only [isTwoWord_bits, Instr.firstWord, Instr.secondWord, encLdd, BitVec.getLsbD_append]
  simp
theorem Lengths.stdZ (d : Reg) (q : BitVec 6) : Lengths.Statement (.stdZ d q) := fun _ => by
  simp only [isTwoWord_bits, Instr.firstWord, Instr.secondWord, encLdd, BitVec.getLsbD_append]
  simp
theorem Lengths.stdY (d : Reg) (q : BitVec 6) : Lengths.Statement (.stdY d q) := fun _ => by
  simp only [isTwoWord_bits, Instr.firstWord, Instr.secondWord, encLdd, BitVec.getLsbD_append]
  simp
theorem Lengths.lds (d : Reg) (k : BitVec 16) : Lengths.Statement (.lds d k) := fun _ => by
  simp only [isTwoWord_bits, Instr.firstWord, Instr.secondWord, encRd, BitVec.getLsbD_append]
  simp
theorem Lengths.ldZinc (d : Reg) : Lengths.Statement (.ldZinc d) := fun _ => by
  simp only [isTwoWord_bits, Instr.firstWord, Instr.secondWord, encRd, BitVec.getLsbD_append]
  simp
theorem Lengths.ldZdec (d : Reg) : Lengths.Statement (.ldZdec d) := fun _ => by
  simp only [isTwoWord_bits, Instr.firstWord, Instr.secondWord, encRd, BitVec.getLsbD_append]
  simp
theorem Lengths.unlistedLd0011 (w : Word) : Lengths.Statement (.unlistedLd0011 w) := fun h =>
  one_word (m := 0xFE0F) (v := 0x9003) h (by decide) (by decide) (by decide) (by decide)
theorem Lengths.lpmRdZ (d : Reg) : Lengths.Statement (.lpmRdZ d) := fun _ => by
  simp only [isTwoWord_bits, Instr.firstWord, Instr.secondWord, encRd, BitVec.getLsbD_append]
  simp
theorem Lengths.lpmRdZinc (d : Reg) : Lengths.Statement (.lpmRdZinc d) := fun _ => by
  simp only [isTwoWord_bits, Instr.firstWord, Instr.secondWord, encRd, BitVec.getLsbD_append]
  simp
theorem Lengths.elpmRdZ (d : Reg) : Lengths.Statement (.elpmRdZ d) := fun _ => by
  simp only [isTwoWord_bits, Instr.firstWord, Instr.secondWord, encRd, BitVec.getLsbD_append]
  simp
theorem Lengths.elpmRdZinc (d : Reg) : Lengths.Statement (.elpmRdZinc d) := fun _ => by
  simp only [isTwoWord_bits, Instr.firstWord, Instr.secondWord, encRd, BitVec.getLsbD_append]
  simp
theorem Lengths.unlistedLd1000 (w : Word) : Lengths.Statement (.unlistedLd1000 w) := fun h =>
  one_word (m := 0xFE0F) (v := 0x9008) h (by decide) (by decide) (by decide) (by decide)
theorem Lengths.ldYinc (d : Reg) : Lengths.Statement (.ldYinc d) := fun _ => by
  simp only [isTwoWord_bits, Instr.firstWord, Instr.secondWord, encRd, BitVec.getLsbD_append]
  simp
theorem Lengths.ldYdec (d : Reg) : Lengths.Statement (.ldYdec d) := fun _ => by
  simp only [isTwoWord_bits, Instr.firstWord, Instr.secondWord, encRd, BitVec.getLsbD_append]
  simp
theorem Lengths.unlistedLd1011 (w : Word) : Lengths.Statement (.unlistedLd1011 w) := fun h =>
  one_word (m := 0xFE0F) (v := 0x900B) h (by decide) (by decide) (by decide) (by decide)
theorem Lengths.ldX (d : Reg) : Lengths.Statement (.ldX d) := fun _ => by
  simp only [isTwoWord_bits, Instr.firstWord, Instr.secondWord, encRd, BitVec.getLsbD_append]
  simp
theorem Lengths.ldXinc (d : Reg) : Lengths.Statement (.ldXinc d) := fun _ => by
  simp only [isTwoWord_bits, Instr.firstWord, Instr.secondWord, encRd, BitVec.getLsbD_append]
  simp
theorem Lengths.ldXdec (d : Reg) : Lengths.Statement (.ldXdec d) := fun _ => by
  simp only [isTwoWord_bits, Instr.firstWord, Instr.secondWord, encRd, BitVec.getLsbD_append]
  simp
theorem Lengths.pop (d : Reg) : Lengths.Statement (.pop d) := fun _ => by
  simp only [isTwoWord_bits, Instr.firstWord, Instr.secondWord, encRd, BitVec.getLsbD_append]
  simp
theorem Lengths.sts (d : Reg) (k : BitVec 16) : Lengths.Statement (.sts d k) := fun _ => by
  simp only [isTwoWord_bits, Instr.firstWord, Instr.secondWord, encRd, BitVec.getLsbD_append]
  simp
theorem Lengths.stZinc (d : Reg) : Lengths.Statement (.stZinc d) := fun _ => by
  simp only [isTwoWord_bits, Instr.firstWord, Instr.secondWord, encRd, BitVec.getLsbD_append]
  simp
theorem Lengths.stZdec (d : Reg) : Lengths.Statement (.stZdec d) := fun _ => by
  simp only [isTwoWord_bits, Instr.firstWord, Instr.secondWord, encRd, BitVec.getLsbD_append]
  simp
theorem Lengths.unlistedSt0011 (w : Word) : Lengths.Statement (.unlistedSt0011 w) := fun h =>
  one_word (m := 0xFE0F) (v := 0x9203) h (by decide) (by decide) (by decide) (by decide)
theorem Lengths.xch (d : Reg) : Lengths.Statement (.xch d) := fun _ => by
  simp only [isTwoWord_bits, Instr.firstWord, Instr.secondWord, encRd, BitVec.getLsbD_append]
  simp
theorem Lengths.las (d : Reg) : Lengths.Statement (.las d) := fun _ => by
  simp only [isTwoWord_bits, Instr.firstWord, Instr.secondWord, encRd, BitVec.getLsbD_append]
  simp
theorem Lengths.lac (d : Reg) : Lengths.Statement (.lac d) := fun _ => by
  simp only [isTwoWord_bits, Instr.firstWord, Instr.secondWord, encRd, BitVec.getLsbD_append]
  simp
theorem Lengths.lat (d : Reg) : Lengths.Statement (.lat d) := fun _ => by
  simp only [isTwoWord_bits, Instr.firstWord, Instr.secondWord, encRd, BitVec.getLsbD_append]
  simp
theorem Lengths.unlistedSt1000 (w : Word) : Lengths.Statement (.unlistedSt1000 w) := fun h =>
  one_word (m := 0xFE0F) (v := 0x9208) h (by decide) (by decide) (by decide) (by decide)
theorem Lengths.stYinc (d : Reg) : Lengths.Statement (.stYinc d) := fun _ => by
  simp only [isTwoWord_bits, Instr.firstWord, Instr.secondWord, encRd, BitVec.getLsbD_append]
  simp
theorem Lengths.stYdec (d : Reg) : Lengths.Statement (.stYdec d) := fun _ => by
  simp only [isTwoWord_bits, Instr.firstWord, Instr.secondWord, encRd, BitVec.getLsbD_append]
  simp
theorem Lengths.unlistedSt1011 (w : Word) : Lengths.Statement (.unlistedSt1011 w) := fun h =>
  one_word (m := 0xFE0F) (v := 0x920B) h (by decide) (by decide) (by decide) (by decide)
theorem Lengths.stX (d : Reg) : Lengths.Statement (.stX d) := fun _ => by
  simp only [isTwoWord_bits, Instr.firstWord, Instr.secondWord, encRd, BitVec.getLsbD_append]
  simp
theorem Lengths.stXinc (d : Reg) : Lengths.Statement (.stXinc d) := fun _ => by
  simp only [isTwoWord_bits, Instr.firstWord, Instr.secondWord, encRd, BitVec.getLsbD_append]
  simp
theorem Lengths.stXdec (d : Reg) : Lengths.Statement (.stXdec d) := fun _ => by
  simp only [isTwoWord_bits, Instr.firstWord, Instr.secondWord, encRd, BitVec.getLsbD_append]
  simp
theorem Lengths.push (d : Reg) : Lengths.Statement (.push d) := fun _ => by
  simp only [isTwoWord_bits, Instr.firstWord, Instr.secondWord, encRd, BitVec.getLsbD_append]
  simp
theorem Lengths.com (d : Reg) : Lengths.Statement (.com d) := fun _ => by
  simp only [isTwoWord_bits, Instr.firstWord, Instr.secondWord, encRd, BitVec.getLsbD_append]
  simp
theorem Lengths.neg (d : Reg) : Lengths.Statement (.neg d) := fun _ => by
  simp only [isTwoWord_bits, Instr.firstWord, Instr.secondWord, encRd, BitVec.getLsbD_append]
  simp
theorem Lengths.swap (d : Reg) : Lengths.Statement (.swap d) := fun _ => by
  simp only [isTwoWord_bits, Instr.firstWord, Instr.secondWord, encRd, BitVec.getLsbD_append]
  simp
theorem Lengths.inc (d : Reg) : Lengths.Statement (.inc d) := fun _ => by
  simp only [isTwoWord_bits, Instr.firstWord, Instr.secondWord, encRd, BitVec.getLsbD_append]
  simp
theorem Lengths.reserved9404 (w : Word) : Lengths.Statement (.reserved9404 w) := fun h =>
  one_word (m := 0xFE0F) (v := 0x9404) h (by decide) (by decide) (by decide) (by decide)
theorem Lengths.asr (d : Reg) : Lengths.Statement (.asr d) := fun _ => by
  simp only [isTwoWord_bits, Instr.firstWord, Instr.secondWord, encRd, BitVec.getLsbD_append]
  simp
theorem Lengths.lsr (d : Reg) : Lengths.Statement (.lsr d) := fun _ => by
  simp only [isTwoWord_bits, Instr.firstWord, Instr.secondWord, encRd, BitVec.getLsbD_append]
  simp
theorem Lengths.ror (d : Reg) : Lengths.Statement (.ror d) := fun _ => by
  simp only [isTwoWord_bits, Instr.firstWord, Instr.secondWord, encRd, BitVec.getLsbD_append]
  simp
theorem Lengths.bset (b : BitVec 3) : Lengths.Statement (.bset b) := fun _ => by
  simp only [isTwoWord_bits, Instr.firstWord, Instr.secondWord, BitVec.getLsbD_append]
  simp
theorem Lengths.bclr (b : BitVec 3) : Lengths.Statement (.bclr b) := fun _ => by
  simp only [isTwoWord_bits, Instr.firstWord, Instr.secondWord, BitVec.getLsbD_append]
  simp
theorem Lengths.ret : Lengths.Statement .ret := fun _ => by decide
theorem Lengths.reti : Lengths.Statement .reti := fun _ => by decide
theorem Lengths.reserved9528 (w : Word) : Lengths.Statement (.reserved9528 w) := fun h =>
  one_word (m := 0xFFEF) (v := 0x9528) h (by decide) (by decide) (by decide) (by decide)
theorem Lengths.reserved9548 (w : Word) : Lengths.Statement (.reserved9548 w) := fun h =>
  one_word (m := 0xFFCF) (v := 0x9548) h (by decide) (by decide) (by decide) (by decide)
theorem Lengths.sleep : Lengths.Statement .sleep := fun _ => by decide
theorem Lengths.break_ : Lengths.Statement .break_ := fun _ => by decide
theorem Lengths.wdr : Lengths.Statement .wdr := fun _ => by decide
theorem Lengths.reserved95b8 (w : Word) : Lengths.Statement (.reserved95b8 w) := fun h =>
  one_word (m := 0xFFFF) (v := 0x95B8) h (by decide) (by decide) (by decide) (by decide)
theorem Lengths.lpm : Lengths.Statement .lpm := fun _ => by decide
theorem Lengths.elpm : Lengths.Statement .elpm := fun _ => by decide
theorem Lengths.spm : Lengths.Statement .spm := fun _ => by decide
theorem Lengths.spmZinc : Lengths.Statement .spmZinc := fun _ => by decide
theorem Lengths.ijmp : Lengths.Statement .ijmp := fun _ => by decide
theorem Lengths.eijmp : Lengths.Statement .eijmp := fun _ => by decide
theorem Lengths.icall : Lengths.Statement .icall := fun _ => by decide
theorem Lengths.eicall : Lengths.Statement .eicall := fun _ => by decide
theorem Lengths.unlisted94x9 (w : Word) : Lengths.Statement (.unlisted94x9 w) := fun h =>
  one_word (m := 0xFE0F) (v := 0x9409) (Bool.and_eq_true_iff.1 h).1 (by decide) (by decide) (by decide) (by decide)
theorem Lengths.dec (d : Reg) : Lengths.Statement (.dec d) := fun _ => by
  simp only [isTwoWord_bits, Instr.firstWord, Instr.secondWord, encRd, BitVec.getLsbD_append]
  simp
theorem Lengths.des (k : BitVec 4) : Lengths.Statement (.des k) := fun _ => by
  simp only [isTwoWord_bits, Instr.firstWord, Instr.secondWord, BitVec.getLsbD_append]
  simp
theorem Lengths.unlisted95xB (w : Word) : Lengths.Statement (.unlisted95xB w) := fun h =>
  one_word (m := 0xFF0F) (v := 0x950B) h (by decide) (by decide) (by decide) (by decide)
theorem Lengths.jmp (k : BitVec 22) : Lengths.Statement (.jmp k) := fun _ => by
  simp only [isTwoWord_bits, Instr.firstWord, Instr.secondWord, BitVec.getLsbD_append]
  simp
theorem Lengths.call (k : BitVec 22) : Lengths.Statement (.call k) := fun _ => by
  simp only [isTwoWord_bits, Instr.firstWord, Instr.secondWord, BitVec.getLsbD_append]
  simp
theorem Lengths.adiw (d : Reg) (k : BitVec 6) : Lengths.Statement (.adiw d k) := fun _ => by
  simp only [isTwoWord_bits, Instr.firstWord, Instr.secondWord, BitVec.getLsbD_append]
  simp
theorem Lengths.sbiw (d : Reg) (k : BitVec 6) : Lengths.Statement (.sbiw d k) := fun _ => by
  simp only [isTwoWord_bits, Instr.firstWord, Instr.secondWord, BitVec.getLsbD_append]
  simp
theorem Lengths.cbi (a : BitVec 5) (b : BitVec 3) : Lengths.Statement (.cbi a b) := fun _ => by
  simp only [isTwoWord_bits, Instr.firstWord, Instr.secondWord, BitVec.getLsbD_append]
  simp
theorem Lengths.sbic (a : BitVec 5) (b : BitVec 3) : Lengths.Statement (.sbic a b) := fun _ => by
  simp only [isTwoWord_bits, Instr.firstWord, Instr.secondWord, BitVec.getLsbD_append]
  simp
theorem Lengths.sbi (a : BitVec 5) (b : BitVec 3) : Lengths.Statement (.sbi a b) := fun _ => by
  simp only [isTwoWord_bits, Instr.firstWord, Instr.secondWord, BitVec.getLsbD_append]
  simp
theorem Lengths.sbis (a : BitVec 5) (b : BitVec 3) : Lengths.Statement (.sbis a b) := fun _ => by
  simp only [isTwoWord_bits, Instr.firstWord, Instr.secondWord, BitVec.getLsbD_append]
  simp
theorem Lengths.mul (d : Reg) (r : Reg) : Lengths.Statement (.mul d r) := fun _ => by
  simp only [isTwoWord_bits, Instr.firstWord, Instr.secondWord, encRdRr, BitVec.getLsbD_append]
  simp
theorem Lengths.in_ (d : Reg) (a : BitVec 6) : Lengths.Statement (.in_ d a) := fun _ => by
  simp only [isTwoWord_bits, Instr.firstWord, Instr.secondWord, BitVec.getLsbD_append]
  simp
theorem Lengths.out (d : Reg) (a : BitVec 6) : Lengths.Statement (.out d a) := fun _ => by
  simp only [isTwoWord_bits, Instr.firstWord, Instr.secondWord, BitVec.getLsbD_append]
  simp
theorem Lengths.rjmp (k : BitVec 12) : Lengths.Statement (.rjmp k) := fun _ => by
  simp only [isTwoWord_bits, Instr.firstWord, Instr.secondWord, BitVec.getLsbD_append]
  simp
theorem Lengths.rcall (k : BitVec 12) : Lengths.Statement (.rcall k) := fun _ => by
  simp only [isTwoWord_bits, Instr.firstWord, Instr.secondWord, BitVec.getLsbD_append]
  simp
theorem Lengths.ldi (d : Reg) (k : Byte) : Lengths.Statement (.ldi d k) := fun _ => by
  simp only [isTwoWord_bits, Instr.firstWord, Instr.secondWord, encRdK, BitVec.getLsbD_append]
  simp
theorem Lengths.brbs (b : BitVec 3) (k : BitVec 7) : Lengths.Statement (.brbs b k) := fun _ => by
  simp only [isTwoWord_bits, Instr.firstWord, Instr.secondWord, BitVec.getLsbD_append]
  simp
theorem Lengths.brbc (b : BitVec 3) (k : BitVec 7) : Lengths.Statement (.brbc b k) := fun _ => by
  simp only [isTwoWord_bits, Instr.firstWord, Instr.secondWord, BitVec.getLsbD_append]
  simp
theorem Lengths.bld (d : Reg) (b : BitVec 3) : Lengths.Statement (.bld d b) := fun _ => by
  simp only [isTwoWord_bits, Instr.firstWord, Instr.secondWord, BitVec.getLsbD_append]
  simp
theorem Lengths.bst (d : Reg) (b : BitVec 3) : Lengths.Statement (.bst d b) := fun _ => by
  simp only [isTwoWord_bits, Instr.firstWord, Instr.secondWord, BitVec.getLsbD_append]
  simp
theorem Lengths.sbrc (d : Reg) (b : BitVec 3) : Lengths.Statement (.sbrc d b) := fun _ => by
  simp only [isTwoWord_bits, Instr.firstWord, Instr.secondWord, BitVec.getLsbD_append]
  simp
theorem Lengths.sbrs (d : Reg) (b : BitVec 3) : Lengths.Statement (.sbrs d b) := fun _ => by
  simp only [isTwoWord_bits, Instr.firstWord, Instr.secondWord, BitVec.getLsbD_append]
  simp
theorem Lengths.reservedF808 (w : Word) : Lengths.Statement (.reservedF808 w) := fun h =>
  one_word (m := 0xF808) (v := 0xF808) h (by decide) (by decide) (by decide) (by decide)
theorem Lengths.ldsTiny (d : Reg) (a : Byte) : Lengths.Statement (.ldsTiny d a) := fun _ => by
  simp only [isTwoWord_bits, Instr.firstWord, Instr.secondWord, encTiny, BitVec.getLsbD_append]
  simp
theorem Lengths.stsTiny (d : Reg) (a : Byte) : Lengths.Statement (.stsTiny d a) := fun _ => by
  simp only [isTwoWord_bits, Instr.firstWord, Instr.secondWord, encTiny, BitVec.getLsbD_append]
  simp

end Sys2Proof.Laws
end

