-- ==== Sys2Proof/Tests/Slice0.lean ====
section
/-! SUPPORT. Tests: decoding of words written out from the encoding tables, ill-formed instructions, single steps whose
results are those of 95_test_vectors.md, and for each statement that has hypotheses a state that meets them. -/

namespace Sys2Proof.Tests

open Sys2Proof.Machine

set_option Elab.async false

/-! ## Words of every row, each bit from table R130 of 30_encoding.md -/

/-- Each word (with its second word) decodes to the instruction beside it, which encodes to it again. -/
def decodes (tiny : Bool) (l : List (Word × Word × Instr)) : Bool :=
  l.all fun (w, w2, i) =>
    (match decodeWords tiny w w2 with
      | .ok j => j == i
      | .error _ => false) &&
    encode i == if isTwoWord w then [w, w2] else [w]

theorem test_decode_rows_1 : decodes false [
    (0b0000000000000000, 0x0000, .nop),
    (0b0000000010100101, 0x0000, .unlisted0000 0xa5),
    (0b0000000110100111, 0x0000, .movw 20 14),
    (0b0000001000010011, 0x0000, .muls 17 19),
    (0b0000001101010100, 0x0000, .mulsu 21 20),
    (0b0000001100111111, 0x0000, .fmul 19 23),
    (0b0000001110010000, 0x0000, .fmuls 17 16),
    (0b0000001110111001, 0x0000, .fmulsu 19 17),
    (0b0000010011100010, 0x0000, .cpc 14 2),
    (0b0000101011110110, 0x0000, .sbc 15 22),
    (0b0000111000000000, 0x0000, .add 0 16),
    (0b0001001100001101, 0x0000, .cpse 16 29),
    (0b0001010110011100, 0x0000, .cp 25 12),
    (0b0001100100010001, 0x0000, .sub 17 1)] = true := by decide +kernel

theorem test_decode_rows_2 : decodes false [
    (0b0001111100100001, 0x0000, .adc 18 17),
    (0b0010000011000001, 0x0000, .and 12 1),
    (0b0010011010001100, 0x0000, .eor 8 28),
    (0b0010100101110000, 0x0000, .or 23 0),
    (0b0010110100111111, 0x0000, .mov 19 15),
    (0b0011111111010110, 0x0000, .cpi 29 0xf6),
    (0b0100010111100110, 0x0000, .sbci 30 0x56),
    (0b0101110010110001, 0x0000, .subi 27 0xc1),
    (0b0110100010011000, 0x0000, .ori 25 0x88),
    (0b0111111010000001, 0x0000, .andi 24 0xe1),
    (0b1010000000010111, 0x0000, .lddZ 1 39),
    (0b1010100101001100, 0x0000, .lddY 20 52),
    (0b1000101001100010, 0x0000, .stdZ 6 18),
    (0b1000001000101111, 0x0000, .stdY 2 7)] = true := by decide +kernel

theorem test_decode_rows_3 : decodes false [
    (0b1001000101100000, 0xD0ED, .lds 22 0xd0ed),
    (0b1001000001100001, 0x0000, .ldZinc 6),
    (0b1001000000110010, 0x0000, .ldZdec 3),
    (0b1001000111110011, 0x0000, .unlistedLd0011 0x91f3),
    (0b1001000000010100, 0x0000, .lpmRdZ 1),
    (0b1001000011110101, 0x0000, .lpmRdZinc 15),
    (0b1001000001000110, 0x0000, .elpmRdZ 4),
    (0b1001000001110111, 0x0000, .elpmRdZinc 7),
    (0b1001000101011000, 0x0000, .unlistedLd1000 0x9158),
    (0b1001000001111001, 0x0000, .ldYinc 7),
    (0b1001000100011010, 0x0000, .ldYdec 17),
    (0b1001000010101011, 0x0000, .unlistedLd1011 0x90ab),
    (0b1001000000011100, 0x0000, .ldX 1),
    (0b1001000011111101, 0x0000, .ldXinc 15)] = true := by decide +kernel

theorem test_decode_rows_4 : decodes false [
    (0b1001000100111110, 0x0000, .ldXdec 19),
    (0b1001000001101111, 0x0000, .pop 6),
    (0b1001001010010000, 0x4CBD, .sts 9 0x4cbd),
    (0b1001001000000001, 0x0000, .stZinc 0),
    (0b1001001110100010, 0x0000, .stZdec 26),
    (0b1001001100000011, 0x0000, .unlistedSt0011 0x9303),
    (0b1001001011110100, 0x0000, .xch 15),
    (0b1001001011010101, 0x0000, .las 13),
    (0b1001001010110110, 0x0000, .lac 11),
    (0b1001001111100111, 0x0000, .lat 30),
    (0b1001001001111000, 0x0000, .unlistedSt1000 0x9278),
    (0b1001001011101001, 0x0000, .stYinc 14),
    (0b1001001111101010, 0x0000, .stYdec 30),
    (0b1001001111111011, 0x0000, .unlistedSt1011 0x93fb)] = true := by decide +kernel

theorem test_decode_rows_5 : decodes false [
    (0b1001001010111100, 0x0000, .stX 11),
    (0b1001001100001101, 0x0000, .stXinc 16),
    (0b1001001000111110, 0x0000, .stXdec 3),
    (0b1001001110011111, 0x0000, .push 25),
    (0b1001010011100000, 0x0000, .com 14),
    (0b1001010111110001, 0x0000, .neg 31),
    (0b1001010001000010, 0x0000, .swap 4),
    (0b1001010111010011, 0x0000, .inc 29),
    (0b1001010101110100, 0x0000, .reserved9404 0x9574),
    (0b1001010011010101, 0x0000, .asr 13),
    (0b1001010000000110, 0x0000, .lsr 0),
    (0b1001010101110111, 0x0000, .ror 23),
    (0b1001010000011000, 0x0000, .bset 1),
    (0b1001010010101000, 0x0000, .bclr 2)] = true := by decide +kernel

theorem test_decode_rows_6 : decodes false [
    (0b1001010100001000, 0x0000, .ret),
    (0b1001010100011000, 0x0000, .reti),
    (0b1001010100111000, 0x0000, .reserved9528 0x9538),
    (0b1001010101101000, 0x0000, .reserved9548 0x9568),
    (0b1001010110001000, 0x0000, .sleep),
    (0b1001010110011000, 0x0000, .break_),
    (0b1001010110101000, 0x0000, .wdr),
    (0b1001010110111000, 0x0000, .reserved95b8 0x95b8),
    (0b1001010111001000, 0x0000, .lpm),
    (0b1001010111011000, 0x0000, .elpm),
    (0b1001010111101000, 0x0000, .spm),
    (0b1001010111111000, 0x0000, .spmZinc),
    (0b1001010000001001, 0x0000, .ijmp),
    (0b1001010000011001, 0x0000, .eijmp)] = true := by decide +kernel

theorem test_decode_rows_7 : decodes false [
    (0b1001010100001001, 0x0000, .icall),
    (0b1001010100011001, 0x0000, .eicall),
    (0b1001010010001001, 0x0000, .unlisted94x9 0x9489),
    (0b1001010110001010, 0x0000, .dec 24),
    (0b1001010010011011, 0x0000, .des 0x9),
    (0b1001010111111011, 0x0000, .unlisted95xB 0x95fb),
    (0b1001010110101100, 0x93F4, .jmp 0x3493f4),
    (0b1001010001101111, 0x7215, .call 0xd7215),
    (0b1001011011000011, 0x0000, .adiw 24 0x33),
    (0b1001011100101100, 0x0000, .sbiw 28 0xc),
    (0b1001100011000110, 0x0000, .cbi 0x18 6),
    (0b1001100100110001, 0x0000, .sbic 0x6 1),
    (0b1001101000000101, 0x0000, .sbi 0x0 5),
    (0b1001101111111001, 0x0000, .sbis 0x1f 1)] = true := by decide +kernel

theorem test_decode_rows_8 : decodes false [
    (0b1001111100010111, 0x0000, .mul 17 23),
    (0b1011010010101010, 0x0000, .in_ 10 0x2a),
    (0b1011100100011100, 0x0000, .out 17 0xc),
    (0b1100111101100011, 0x0000, .rjmp (-157)),
    (0b1101010000010101, 0x0000, .rcall 0x415),
    (0b1110111100010101, 0x0000, .ldi 17 0xf5),
    (0b1111000010100000, 0x0000, .brbs 0 0x14),
    (0b1111011011111101, 0x0000, .brbc 5 (-33)),
    (0b1111100010100000, 0x0000, .bld 10 0),
    (0b1111101000100101, 0x0000, .bst 2 5),
    (0b1111110110110100, 0x0000, .sbrc 27 4),
    (0b1111111100100110, 0x0000, .sbrs 18 6),
    (0b1111110101011100, 0x0000, .reservedF808 0xfd5c)] = true := by decide +kernel

theorem test_decode_tiny : decodes true [
    (0b1010011101000110, 0x0000, .ldsTiny 20 0x76),
    (0b1010101001010000, 0x0000, .stsTiny 21 0x90)] = true := by decide +kernel

/-! ## Single steps: the vectors of 95_test_vectors.md, tables T2 and T3 -/

/-- A state of a variant: general registers, SREG, pc, SP, bytes of SRAM, words of program memory. -/
def start (c : Cfg) (regs : List (Reg × Byte)) (sreg : Byte) (pc : ProgAddr) (sp : BitVec 16)
    (dm : List (DataAddr × Byte)) (pm : List (ProgAddr × Word)) : State :=
  let s := { State.resetOf c with sreg := sreg, pc := pc, sp := sp }
  let s := regs.foldl (fun s (d, v) => s.setReg d v) s
  let s := dm.foldl (fun s (a, v) => s.setDm (Memory.write .data s.dm a.toNat v)) s
  pm.foldl (fun s (a, w) => s.placeWord a w) s

/-- The next state satisfies the test. -/
def runs (s : State) (p : State → Bool) : Bool :=
  match step s with
  | .next t => p t
  | _ => false

/-- The registers, SREG, pc, SP and the bytes of SRAM read so. -/
def reads (regs : List (Reg × Byte)) (sreg : Byte) (pc : ProgAddr) (sp : BitVec 16) (dm : List (DataAddr × Byte))
    (t : State) : Bool :=
  regs.all (fun (d, v) => t.reg d == v) && t.sreg == sreg && t.pc == pc && t.sp == sp &&
  dm.all (fun (a, v) => Memory.read .data t.dm a.toNat == some v)

/-- The step ends with this fault. -/
def faults (s : State) (f : Fault) : Bool :=
  match step s with
  | .fault g => g == f
  | _ => false

/-- The step ends with this refusal. -/
def refuses (s : State) (r : Refusal) : Bool :=
  match step s with
  | .refused x => x == r
  | _ => false

/-- `NOP`. -/
theorem test_nop_1 : runs
    (start .ref [] 0xA5 0x0000 0x08FF [] [(0x0000, 0x0000)])
    (reads [] 0xA5 0x0001 0x08FF []) = true := by decide +kernel

/-- `.dw 0x0001`. -/
theorem test_unlisted0000_1 : faults
    (start .ref [] 0x00 0x0000 0x08FF [] [(0x0000, 0x0001)])
    (.reservedInstruction 0x0001) = true := by decide +kernel

/-- `MOVW R25:R24,R31:R30`. -/
theorem test_movw_1 : runs
    (start .ref [(30, 0x34), (31, 0x12)] 0x00 0x0000 0x08FF [] [(0x0000, 0x01CF)])
    (reads [(24, 0x34), (25, 0x12)] 0x00 0x0001 0x08FF []) = true := by decide +kernel

/-- `MOVW R1:R0,R1:R0`. -/
theorem test_movw_2 : runs
    (start .ref [(0, 0x01), (1, 0x02)] 0x00 0x0000 0x08FF [] [(0x0000, 0x0100)])
    (reads [(0, 0x01), (1, 0x02)] 0x00 0x0001 0x08FF []) = true := by decide +kernel

/-- `MULS R16,R17`. -/
theorem test_muls_1 : runs
    (start .ref [(16, 0xFF), (17, 0x02)] 0x00 0x0000 0x08FF [] [(0x0000, 0x0201)])
    (reads [(0, 0xFE), (1, 0xFF)] 0x01 0x0001 0x08FF []) = true := by decide +kernel

/-- `MULS R20,R21`. -/
theorem test_muls_2 : runs
    (start .ref [(20, 0x80), (21, 0x7F)] 0x00 0x0000 0x08FF [] [(0x0000, 0x0245)])
    (reads [(0, 0x80), (1, 0xC0)] 0x01 0x0001 0x08FF []) = true := by decide +kernel

/-- `MULSU R16,R17`. -/
theorem test_mulsu_1 : runs
    (start .ref [(16, 0xFF), (17, 0xFF)] 0x00 0x0000 0x08FF [] [(0x0000, 0x0301)])
    (reads [(0, 0x01), (1, 0xFF)] 0x01 0x0001 0x08FF []) = true := by decide +kernel

/-- `MULSU R23,R16`. -/
theorem test_mulsu_2 : runs
    (start .ref [(23, 0x7F), (16, 0xFF)] 0x00 0x0000 0x08FF [] [(0x0000, 0x0370)])
    (reads [(0, 0x81), (1, 0x7E)] 0x00 0x0001 0x08FF []) = true := by decide +kernel

/-- `FMUL R16,R17`. -/
theorem test_fmul_1 : runs
    (start .ref [(16, 0x40), (17, 0x40)] 0x00 0x0000 0x08FF [] [(0x0000, 0x0309)])
    (reads [(0, 0x00), (1, 0x20)] 0x00 0x0001 0x08FF []) = true := by decide +kernel

/-- `FMUL R16,R17`. -/
theorem test_fmul_2 : runs
    (start .ref [(16, 0x80), (17, 0x80)] 0x00 0x0000 0x08FF [] [(0x0000, 0x0309)])
    (reads [(0, 0x00), (1, 0x80)] 0x00 0x0001 0x08FF []) = true := by decide +kernel

/-- `FMULS R16,R17`. -/
theorem test_fmuls_1 : runs
    (start .ref [(16, 0x80), (17, 0x80)] 0x00 0x0000 0x08FF [] [(0x0000, 0x0381)])
    (reads [(0, 0x00), (1, 0x80)] 0x00 0x0001 0x08FF []) = true := by decide +kernel

/-- `FMULS R16,R17`. -/
theorem test_fmuls_2 : runs
    (start .ref [(16, 0x40), (17, 0x40)] 0x00 0x0000 0x08FF [] [(0x0000, 0x0381)])
    (reads [(0, 0x00), (1, 0x20)] 0x00 0x0001 0x08FF []) = true := by decide +kernel

/-- `FMULSU R16,R17`. -/
theorem test_fmulsu_1 : runs
    (start .ref [(16, 0xC0), (17, 0x80)] 0x00 0x0000 0x08FF [] [(0x0000, 0x0389)])
    (reads [(0, 0x00), (1, 0xC0)] 0x01 0x0001 0x08FF []) = true := by decide +kernel

/-- `FMULSU R16,R17`. -/
theorem test_fmulsu_2 : runs
    (start .ref [(16, 0x40), (17, 0x00)] 0x01 0x0000 0x08FF [] [(0x0000, 0x0389)])
    (reads [(0, 0x00), (1, 0x00)] 0x02 0x0001 0x08FF []) = true := by decide +kernel

/-- `CPC R17,R19`. -/
theorem test_cpc_1 : runs
    (start .ref [(17, 0x12), (19, 0x12)] 0x02 0x0000 0x08FF [] [(0x0000, 0x0713)])
    (reads [(17, 0x12)] 0x02 0x0001 0x08FF []) = true := by decide +kernel

/-- `CPC R17,R19`. -/
theorem test_cpc_2 : runs
    (start .ref [(17, 0x12), (19, 0x12)] 0x03 0x0000 0x08FF [] [(0x0000, 0x0713)])
    (reads [(17, 0x12)] 0x35 0x0001 0x08FF []) = true := by decide +kernel

/-- `SBC R17,R19`. -/
theorem test_sbc_1 : runs
    (start .ref [(17, 0x00), (19, 0x00)] 0x03 0x0000 0x08FF [] [(0x0000, 0x0B13)])
    (reads [(17, 0xFF)] 0x35 0x0001 0x08FF []) = true := by decide +kernel

/-- `SBC R17,R19`. -/
theorem test_sbc_2 : runs
    (start .ref [(17, 0x05), (19, 0x05)] 0x00 0x0000 0x08FF [] [(0x0000, 0x0B13)])
    (reads [(17, 0x00)] 0x00 0x0001 0x08FF []) = true := by decide +kernel

/-- `ADD R16,R17`. -/
theorem test_add_1 : runs
    (start .ref [(16, 0x3A), (17, 0xC6)] 0x00 0x0000 0x08FF [] [(0x0000, 0x0F01)])
    (reads [(16, 0x00)] 0x23 0x0001 0x08FF []) = true := by decide +kernel

/-- `CPSE R0,R1`. -/
theorem test_cpse_1 : runs
    (start .ref [(0, 0x05), (1, 0x05)] 0x00 0x0010 0x08FF [] [(0x0010, 0x1001), (0x0011, 0x0000)])
    (reads [] 0x00 0x0012 0x08FF []) = true := by decide +kernel

/-- `CPSE R0,R1`. -/
theorem test_cpse_2 : runs
    (start .ref [(0, 0x05), (1, 0x05)] 0x00 0x0010 0x08FF [] [(0x0010, 0x1001), (0x0011, 0x9030), (0x0012, 0x0100)])
    (reads [] 0x00 0x0013 0x08FF []) = true := by decide +kernel

/-- `CP R16,R17`. -/
theorem test_cp_1 : runs
    (start .ref [(16, 0x05), (17, 0x0A)] 0x00 0x0000 0x08FF [] [(0x0000, 0x1701)])
    (reads [(16, 0x05)] 0x35 0x0001 0x08FF []) = true := by decide +kernel

/-- `CP R16,R17`. -/
theorem test_cp_2 : runs
    (start .ref [(16, 0x42), (17, 0x42)] 0x00 0x0000 0x08FF [] [(0x0000, 0x1701)])
    (reads [(16, 0x42)] 0x02 0x0001 0x08FF []) = true := by decide +kernel

/-- `SUB R16,R17`. -/
theorem test_sub_1 : runs
    (start .ref [(16, 0x10), (17, 0x01)] 0x00 0x0000 0x08FF [] [(0x0000, 0x1B01)])
    (reads [(16, 0x0F)] 0x20 0x0001 0x08FF []) = true := by decide +kernel

/-- `SUB R5,R5`. -/
theorem test_sub_2 : runs
    (start .ref [(5, 0x5A)] 0x00 0x0000 0x08FF [] [(0x0000, 0x1855)])
    (reads [(5, 0x00)] 0x02 0x0001 0x08FF []) = true := by decide +kernel

/-- `ADC R3,R4`. -/
theorem test_adc_1 : runs
    (start .ref [(3, 0xFF), (4, 0x00)] 0x01 0x0000 0x08FF [] [(0x0000, 0x1C34)])
    (reads [(3, 0x00)] 0x23 0x0001 0x08FF []) = true := by decide +kernel

/-- `ADC R16,R16`. -/
theorem test_adc_2 : runs
    (start .ref [(16, 0x80)] 0x01 0x0000 0x08FF [] [(0x0000, 0x1F00)])
    (reads [(16, 0x01)] 0x19 0x0001 0x08FF []) = true := by decide +kernel

/-- `AND R16,R17`. -/
theorem test_and_1 : runs
    (start .ref [(16, 0xF0), (17, 0x3C)] 0x09 0x0000 0x08FF [] [(0x0000, 0x2301)])
    (reads [(16, 0x30)] 0x01 0x0001 0x08FF []) = true := by decide +kernel

/-- `AND R2,R2`. -/
theorem test_and_2 : runs
    (start .ref [(2, 0x00)] 0x01 0x0000 0x08FF [] [(0x0000, 0x2022)])
    (reads [(2, 0x00)] 0x03 0x0001 0x08FF []) = true := by decide +kernel

/-- `EOR R16,R17`. -/
theorem test_eor_1 : runs
    (start .ref [(16, 0xFF), (17, 0x0F)] 0x00 0x0000 0x08FF [] [(0x0000, 0x2701)])
    (reads [(16, 0xF0)] 0x14 0x0001 0x08FF []) = true := by decide +kernel

/-- `EOR R7,R7`. -/
theorem test_eor_2 : runs
    (start .ref [] 0x3D 0x0000 0x08FF [] [(0x0000, 0x2477)])
    (reads [(7, 0x00)] 0x23 0x0001 0x08FF []) = true := by decide +kernel

/-- `OR R0,R31`. -/
theorem test_or_1 : runs
    (start .ref [(0, 0x0F), (31, 0x80)] 0x00 0x0000 0x08FF [] [(0x0000, 0x2A0F)])
    (reads [(0, 0x8F)] 0x14 0x0001 0x08FF []) = true := by decide +kernel

/-- `MOV R0,R31`. -/
theorem test_mov_1 : runs
    (start .ref [(31, 0x5A)] 0x00 0x0000 0x08FF [] [(0x0000, 0x2E0F)])
    (reads [(0, 0x5A), (31, 0x5A)] 0x00 0x0001 0x08FF []) = true := by decide +kernel

/-- `CPI R16,0x10`. -/
theorem test_cpi_1 : runs
    (start .ref [(16, 0x10)] 0x00 0x0000 0x08FF [] [(0x0000, 0x3100)])
    (reads [(16, 0x10)] 0x02 0x0001 0x08FF []) = true := by decide +kernel

/-- `CPI R16,0x80`. -/
theorem test_cpi_2 : runs
    (start .ref [(16, 0x7F)] 0x00 0x0000 0x08FF [] [(0x0000, 0x3800)])
    (reads [(16, 0x7F)] 0x0D 0x0001 0x08FF []) = true := by decide +kernel

/-- `SBCI R17,0x00`. -/
theorem test_sbci_1 : runs
    (start .ref [(17, 0x00)] 0x01 0x0000 0x08FF [] [(0x0000, 0x4010)])
    (reads [(17, 0xFF)] 0x35 0x0001 0x08FF []) = true := by decide +kernel

/-- `SBCI R20,0x12`. -/
theorem test_sbci_2 : runs
    (start .ref [(20, 0x12)] 0x02 0x0000 0x08FF [] [(0x0000, 0x4142)])
    (reads [(20, 0x00)] 0x02 0x0001 0x08FF []) = true := by decide +kernel

/-- `SUBI R16,0x10`. -/
theorem test_subi_1 : runs
    (start .ref [(16, 0x05)] 0x00 0x0000 0x08FF [] [(0x0000, 0x5100)])
    (reads [(16, 0xF5)] 0x15 0x0001 0x08FF []) = true := by decide +kernel

/-- `SUBI R31,0xFF`. -/
theorem test_subi_2 : runs
    (start .ref [(31, 0x00)] 0x00 0x0000 0x08FF [] [(0x0000, 0x5FFF)])
    (reads [(31, 0x01)] 0x21 0x0001 0x08FF []) = true := by decide +kernel

/-- `ORI R24,0x00`. -/
theorem test_ori_1 : runs
    (start .ref [(24, 0x00)] 0x00 0x0000 0x08FF [] [(0x0000, 0x6080)])
    (reads [(24, 0x00)] 0x02 0x0001 0x08FF []) = true := by decide +kernel

/-- `ORI R16,0x81`. -/
theorem test_ori_2 : runs
    (start .ref [(16, 0x10)] 0x00 0x0000 0x08FF [] [(0x0000, 0x6801)])
    (reads [(16, 0x91)] 0x14 0x0001 0x08FF []) = true := by decide +kernel

/-- `ANDI R16,0x0F`. -/
theorem test_andi_1 : runs
    (start .ref [(16, 0xA5)] 0x00 0x0000 0x08FF [] [(0x0000, 0x700F)])
    (reads [(16, 0x05)] 0x00 0x0001 0x08FF []) = true := by decide +kernel

/-- `ANDI R16,0x80`. -/
theorem test_andi_2 : runs
    (start .ref [(16, 0xFF)] 0x08 0x0000 0x08FF [] [(0x0000, 0x7800)])
    (reads [(16, 0x80)] 0x14 0x0001 0x08FF []) = true := by decide +kernel

/-- `LD R16,Z`. -/
theorem test_lddZ_1 : runs
    (start .ref [(30, 0x00), (31, 0x01)] 0x00 0x0000 0x08FF [(0x0100, 0x66)] [(0x0000, 0x8100)])
    (reads [(16, 0x66), (30, 0x00), (31, 0x01)] 0x00 0x0001 0x08FF []) = true := by decide +kernel

/-- `LDD R2,Z+5`. -/
theorem test_lddZ_2 : runs
    (start .ref [(30, 0xFE), (31, 0xFF), (3, 0x77)] 0x00 0x0000 0x08FF [] [(0x0000, 0x8025)])
    (reads [(2, 0x77)] 0x00 0x0001 0x08FF []) = true := by decide +kernel

/-- `LDD R16,Y+63`. -/
theorem test_lddY_1 : runs
    (start .ref [(28, 0x00), (29, 0x01)] 0x00 0x0000 0x08FF [(0x013F, 0x67)] [(0x0000, 0xAD0F)])
    (reads [(16, 0x67), (28, 0x00), (29, 0x01)] 0x00 0x0001 0x08FF []) = true := by decide +kernel

/-- `STD Z+63,R0`. -/
theorem test_stdZ_1 : runs
    (start .ref [(0, 0x01), (30, 0x00), (31, 0x02)] 0x00 0x0000 0x08FF [] [(0x0000, 0xAE07)])
    (reads [] 0x00 0x0001 0x08FF [(0x023F, 0x01)]) = true := by decide +kernel

/-- `ST Z,R30`. -/
theorem test_stdZ_2 : runs
    (start .ref [(30, 0x50), (31, 0x01)] 0x00 0x0000 0x08FF [] [(0x0000, 0x83E0)])
    (reads [(30, 0x50), (31, 0x01)] 0x00 0x0001 0x08FF [(0x0150, 0x50)]) = true := by decide +kernel

/-- `STD Y+2,R17`. -/
theorem test_stdY_1 : runs
    (start .ref [(17, 0xEE), (28, 0x10), (29, 0x01)] 0x00 0x0000 0x08FF [] [(0x0000, 0x831A)])
    (reads [] 0x00 0x0001 0x08FF [(0x0112, 0xEE)]) = true := by decide +kernel

/-- `LDS R16,0x0100`. -/
theorem test_lds_1 : runs
    (start .ref [] 0x00 0x0000 0x08FF [(0x0100, 0x77)] [(0x0000, 0x9100), (0x0001, 0x0100)])
    (reads [(16, 0x77)] 0x00 0x0002 0x08FF []) = true := by decide +kernel

/-- `LD R16,Z+`. -/
theorem test_ldZinc_1 : runs
    (start .ref [(30, 0xFF), (31, 0x08)] 0x00 0x0000 0x08FF [(0x08FF, 0x55)] [(0x0000, 0x9101)])
    (reads [(16, 0x55), (30, 0x00), (31, 0x09)] 0x00 0x0001 0x08FF []) = true := by decide +kernel

/-- `LD R31,Z+`. -/
theorem test_ldZinc_2 : faults
    (start .ref [(30, 0x00), (31, 0x02)] 0x00 0x0000 0x08FF [(0x0200, 0x01)] [(0x0000, 0x91F1)])
    (.undefinedOperands 0x91F1) = true := by decide +kernel

/-- `LD R16,-Z`. -/
theorem test_ldZdec_1 : runs
    (start .ref [(30, 0x00), (31, 0x02)] 0x00 0x0000 0x08FF [(0x01FF, 0x56)] [(0x0000, 0x9102)])
    (reads [(16, 0x56), (30, 0xFF), (31, 0x01)] 0x00 0x0001 0x08FF []) = true := by decide +kernel

/-- `LPM R16,Z`. -/
theorem test_lpmRdZ_1 : runs
    (start .ref [(30, 0x01), (31, 0x02)] 0x00 0x0000 0x08FF [] [(0x0000, 0x9104), (0x0100, 0xBEEF)])
    (reads [(16, 0xBE), (30, 0x01), (31, 0x02)] 0x00 0x0001 0x08FF []) = true := by decide +kernel

/-- `LPM R16,Z+`. -/
theorem test_lpmRdZinc_1 : runs
    (start .ref [(30, 0x00), (31, 0x02)] 0x00 0x0000 0x08FF [] [(0x0000, 0x9105), (0x0100, 0xBEEF)])
    (reads [(16, 0xEF), (30, 0x01), (31, 0x02)] 0x00 0x0001 0x08FF []) = true := by decide +kernel

/-- `LPM R16,Z+`. -/
theorem test_lpmRdZinc_2 : runs
    (start .ref [(30, 0xFF), (31, 0xFF)] 0x00 0x0000 0x08FF [] [(0x0000, 0x9105), (0x7FFF, 0x1234)])
    (reads [(16, 0x12), (30, 0x00), (31, 0x00)] 0x00 0x0001 0x08FF []) = true := by decide +kernel

/-- `LD R16,Y+`. -/
theorem test_ldYinc_1 : runs
    (start .ref [(28, 0x00), (29, 0x01)] 0x00 0x0000 0x08FF [(0x0100, 0x44)] [(0x0000, 0x9109)])
    (reads [(16, 0x44), (28, 0x01), (29, 0x01)] 0x00 0x0001 0x08FF []) = true := by decide +kernel

/-- `LD R16,-Y`. -/
theorem test_ldYdec_1 : runs
    (start .ref [(28, 0x01), (29, 0x01)] 0x00 0x0000 0x08FF [(0x0100, 0x44)] [(0x0000, 0x910A)])
    (reads [(16, 0x44), (28, 0x00), (29, 0x01)] 0x00 0x0001 0x08FF []) = true := by decide +kernel

/-- `LD R0,X`. -/
theorem test_ldX_1 : runs
    (start .ref [(26, 0x00), (27, 0x02)] 0x00 0x0000 0x08FF [(0x0200, 0x11)] [(0x0000, 0x900C)])
    (reads [(0, 0x11), (26, 0x00), (27, 0x02)] 0x00 0x0001 0x08FF []) = true := by decide +kernel

/-- `LD R26,X`. -/
theorem test_ldX_2 : runs
    (start .ref [(26, 0x00), (27, 0x02)] 0x00 0x0000 0x08FF [(0x0200, 0x11)] [(0x0000, 0x91AC)])
    (reads [(26, 0x11), (27, 0x02)] 0x00 0x0001 0x08FF []) = true := by decide +kernel

/-- `LD R0,X+`. -/
theorem test_ldXinc_1 : runs
    (start .ref [(26, 0xFF), (27, 0x01)] 0x00 0x0000 0x08FF [(0x01FF, 0x22)] [(0x0000, 0x900D)])
    (reads [(0, 0x22), (26, 0x00), (27, 0x02)] 0x00 0x0001 0x08FF []) = true := by decide +kernel

/-- `LD R0,-X`. -/
theorem test_ldXdec_1 : runs
    (start .ref [(26, 0x00), (27, 0x02)] 0x00 0x0000 0x08FF [(0x01FF, 0x33)] [(0x0000, 0x900E)])
    (reads [(0, 0x33), (26, 0xFF), (27, 0x01)] 0x00 0x0001 0x08FF []) = true := by decide +kernel

/-- `LD R27,-X`. -/
theorem test_ldXdec_2 : faults
    (start .ref [(26, 0x00), (27, 0x02)] 0x00 0x0000 0x08FF [(0x01FF, 0x01)] [(0x0000, 0x91BE)])
    (.undefinedOperands 0x91BE) = true := by decide +kernel

/-- `POP R17`. -/
theorem test_pop_1 : runs
    (start .ref [] 0x00 0x0000 0x08FE [(0x08FF, 0x42)] [(0x0000, 0x911F)])
    (reads [(17, 0x42)] 0x00 0x0001 0x08FF []) = true := by decide +kernel

/-- `STS 0x0123,R5`. -/
theorem test_sts_1 : runs
    (start .ref [(5, 0xAB)] 0x00 0x0000 0x08FF [] [(0x0000, 0x9250), (0x0001, 0x0123)])
    (reads [] 0x00 0x0002 0x08FF [(0x0123, 0xAB)]) = true := by decide +kernel

/-- `STS 0x0003,R5`. -/
theorem test_sts_2 : runs
    (start .ref [(5, 0x34)] 0x00 0x0000 0x08FF [] [(0x0000, 0x9250), (0x0001, 0x0003)])
    (reads [(3, 0x34)] 0x00 0x0002 0x08FF []) = true := by decide +kernel

/-- `.dw 0x9304`. -/
theorem test_xch_1 : faults
    (start .ref [] 0x00 0x0000 0x08FF [] [(0x0000, 0x9304)])
    (.reservedInstruction 0x9304) = true := by decide +kernel

/-- `ST Y+,R28`. -/
theorem test_stYinc_1 : faults
    (start .ref [(28, 0x00), (29, 0x02)] 0x00 0x0000 0x08FF [] [(0x0000, 0x93C9)])
    (.undefinedOperands 0x93C9) = true := by decide +kernel

/-- `ST -Y,R1`. -/
theorem test_stYdec_1 : runs
    (start .ref [(1, 0x42), (28, 0x00), (29, 0x02)] 0x00 0x0000 0x08FF [] [(0x0000, 0x921A)])
    (reads [(28, 0xFF), (29, 0x01)] 0x00 0x0001 0x08FF [(0x01FF, 0x42)]) = true := by decide +kernel

/-- `ST X,R7`. -/
theorem test_stX_1 : runs
    (start .ref [(7, 0x99), (26, 0x05), (27, 0x00)] 0x00 0x0000 0x08FF [] [(0x0000, 0x927C)])
    (reads [(5, 0x99), (7, 0x99)] 0x00 0x0001 0x08FF []) = true := by decide +kernel

/-- `ST X+,R1`. -/
theorem test_stXinc_1 : runs
    (start .ref [(1, 0x42), (26, 0xFF), (27, 0x01)] 0x00 0x0000 0x08FF [] [(0x0000, 0x921D)])
    (reads [(26, 0x00), (27, 0x02)] 0x00 0x0001 0x08FF [(0x01FF, 0x42)]) = true := by decide +kernel

/-- `PUSH R16`. -/
theorem test_push_1 : runs
    (start .ref [(16, 0x42)] 0x00 0x0000 0x08FF [] [(0x0000, 0x930F)])
    (reads [] 0x00 0x0001 0x08FE [(0x08FF, 0x42)]) = true := by decide +kernel

/-- `PUSH R16`. -/
theorem test_push_2 : runs
    (start .ref [(16, 0x42)] 0x00 0x0000 0x0000 [] [(0x0000, 0x930F)])
    (reads [(0, 0x42)] 0x00 0x0001 0xFFFF []) = true := by decide +kernel

/-- `COM R16`. -/
theorem test_com_1 : runs
    (start .ref [(16, 0x55)] 0x00 0x0000 0x08FF [] [(0x0000, 0x9500)])
    (reads [(16, 0xAA)] 0x15 0x0001 0x08FF []) = true := by decide +kernel

/-- `COM R16`. -/
theorem test_com_2 : runs
    (start .ref [(16, 0xFF)] 0x00 0x0000 0x08FF [] [(0x0000, 0x9500)])
    (reads [(16, 0x00)] 0x03 0x0001 0x08FF []) = true := by decide +kernel

/-- `NEG R16`. -/
theorem test_neg_1 : runs
    (start .ref [(16, 0x01)] 0x00 0x0000 0x08FF [] [(0x0000, 0x9501)])
    (reads [(16, 0xFF)] 0x35 0x0001 0x08FF []) = true := by decide +kernel

/-- `NEG R16`. -/
theorem test_neg_2 : runs
    (start .ref [(16, 0x10)] 0x00 0x0000 0x08FF [] [(0x0000, 0x9501)])
    (reads [(16, 0xF0)] 0x15 0x0001 0x08FF []) = true := by decide +kernel

/-- `SWAP R16`. -/
theorem test_swap_1 : runs
    (start .ref [(16, 0xA5)] 0xFF 0x0000 0x08FF [] [(0x0000, 0x9502)])
    (reads [(16, 0x5A)] 0xFF 0x0001 0x08FF []) = true := by decide +kernel

/-- `INC R16`. -/
theorem test_inc_1 : runs
    (start .ref [(16, 0x7F)] 0x01 0x0000 0x08FF [] [(0x0000, 0x9503)])
    (reads [(16, 0x80)] 0x0D 0x0001 0x08FF []) = true := by decide +kernel

/-- `INC R16`. -/
theorem test_inc_2 : runs
    (start .ref [(16, 0xFF)] 0x00 0x0000 0x08FF [] [(0x0000, 0x9503)])
    (reads [(16, 0x00)] 0x02 0x0001 0x08FF []) = true := by decide +kernel

/-- `.dw 0x9404`. -/
theorem test_reserved9404_1 : faults
    (start .ref [] 0x00 0x0000 0x08FF [] [(0x0000, 0x9404)])
    (.reservedInstruction 0x9404) = true := by decide +kernel

/-- `ASR R16`. -/
theorem test_asr_1 : runs
    (start .ref [(16, 0x81)] 0x00 0x0000 0x08FF [] [(0x0000, 0x9505)])
    (reads [(16, 0xC0)] 0x15 0x0001 0x08FF []) = true := by decide +kernel

/-- `ASR R16`. -/
theorem test_asr_2 : runs
    (start .ref [(16, 0x40)] 0x00 0x0000 0x08FF [] [(0x0000, 0x9505)])
    (reads [(16, 0x20)] 0x00 0x0001 0x08FF []) = true := by decide +kernel

/-- `LSR R16`. -/
theorem test_lsr_1 : runs
    (start .ref [(16, 0x01)] 0x00 0x0000 0x08FF [] [(0x0000, 0x9506)])
    (reads [(16, 0x00)] 0x1B 0x0001 0x08FF []) = true := by decide +kernel

/-- `LSR R16`. -/
theorem test_lsr_2 : runs
    (start .ref [(16, 0xFF)] 0x00 0x0000 0x08FF [] [(0x0000, 0x9506)])
    (reads [(16, 0x7F)] 0x19 0x0001 0x08FF []) = true := by decide +kernel

/-- `ROR R16`. -/
theorem test_ror_1 : runs
    (start .ref [(16, 0x01)] 0x00 0x0000 0x08FF [] [(0x0000, 0x9507)])
    (reads [(16, 0x00)] 0x1B 0x0001 0x08FF []) = true := by decide +kernel

/-- `ROR R16`. -/
theorem test_ror_2 : runs
    (start .ref [(16, 0x03)] 0x01 0x0000 0x08FF [] [(0x0000, 0x9507)])
    (reads [(16, 0x81)] 0x15 0x0001 0x08FF []) = true := by decide +kernel

/-- `BSET 0 (SEC)`. -/
theorem test_bset_1 : runs
    (start .ref [] 0x00 0x0000 0x08FF [] [(0x0000, 0x9408)])
    (reads [] 0x01 0x0001 0x08FF []) = true := by decide +kernel

/-- `BSET 6 (SET)`. -/
theorem test_bset_2 : runs
    (start .ref [] 0x00 0x0000 0x08FF [] [(0x0000, 0x9468)])
    (reads [] 0x40 0x0001 0x08FF []) = true := by decide +kernel

/-- `BCLR 7 (CLI)`. -/
theorem test_bclr_1 : runs
    (start .ref [] 0xFF 0x0000 0x08FF [] [(0x0000, 0x94F8)])
    (reads [] 0x7F 0x0001 0x08FF []) = true := by decide +kernel

/-- `BCLR 1 (CLZ)`. -/
theorem test_bclr_2 : runs
    (start .ref [] 0x02 0x0000 0x08FF [] [(0x0000, 0x9498)])
    (reads [] 0x00 0x0001 0x08FF []) = true := by decide +kernel

/-- `RET`. -/
theorem test_ret_1 : runs
    (start .ref [] 0x00 0x0400 0x08FD [(0x08FE, 0x02), (0x08FF, 0x00)] [(0x0400, 0x9508)])
    (reads [] 0x00 0x0200 0x08FF []) = true := by decide +kernel

/-- `RETI`. -/
theorem test_reti_1 : runs
    (start .ref [] 0x01 0x0400 0x08FD [(0x08FE, 0x02), (0x08FF, 0x00)] [(0x0400, 0x9518)])
    (reads [] 0x81 0x0200 0x08FF []) = true := by decide +kernel

/-- `.dw 0x9528`. -/
theorem test_reserved9528_1 : faults
    (start .ref [] 0x00 0x0000 0x08FF [] [(0x0000, 0x9528)])
    (.reservedInstruction 0x9528) = true := by decide +kernel

/-- `.dw 0x9598`. -/
theorem test_break_1 : faults
    (start .ref [] 0x00 0x0000 0x08FF [] [(0x0000, 0x9598)])
    (.reservedInstruction 0x9598) = true := by decide +kernel

/-- `.dw 0x95B8`. -/
theorem test_reserved95b8_1 : faults
    (start .ref [] 0x00 0x0000 0x08FF [] [(0x0000, 0x95B8)])
    (.reservedInstruction 0x95B8) = true := by decide +kernel

/-- `LPM`. -/
theorem test_lpm_1 : runs
    (start .ref [(30, 0x00), (31, 0x02)] 0x00 0x0000 0x08FF [] [(0x0000, 0x95C8), (0x0100, 0xBEEF)])
    (reads [(0, 0xEF)] 0x00 0x0001 0x08FF []) = true := by decide +kernel

/-- `LPM`. -/
theorem test_lpm_2 : runs
    (start .ref [(30, 0x01), (31, 0x02)] 0x00 0x0000 0x08FF [] [(0x0000, 0x95C8), (0x0100, 0xBEEF)])
    (reads [(0, 0xBE)] 0x00 0x0001 0x08FF []) = true := by decide +kernel

/-- `.dw 0x95D8`. -/
theorem test_elpm_1 : faults
    (start .ref [] 0x00 0x0000 0x08FF [] [(0x0000, 0x95D8)])
    (.reservedInstruction 0x95D8) = true := by decide +kernel

/-- `.dw 0x95E8`. -/
theorem test_spm_1 : faults
    (start .ref [] 0x00 0x0000 0x08FF [] [(0x0000, 0x95E8)])
    (.reservedInstruction 0x95E8) = true := by decide +kernel

/-- `IJMP`. -/
theorem test_ijmp_1 : runs
    (start .ref [(30, 0x34), (31, 0x12)] 0x00 0x0010 0x08FF [] [(0x0010, 0x9409)])
    (reads [] 0x00 0x1234 0x08FF []) = true := by decide +kernel

/-- `.dw 0x9419`. -/
theorem test_eijmp_1 : faults
    (start .ref [] 0x00 0x0000 0x08FF [] [(0x0000, 0x9419)])
    (.reservedInstruction 0x9419) = true := by decide +kernel

/-- `ICALL`. -/
theorem test_icall_1 : runs
    (start .ref [(30, 0x00), (31, 0x20)] 0x00 0x00FF 0x08FF [] [(0x00FF, 0x9509)])
    (reads [] 0x00 0x2000 0x08FD [(0x08FE, 0x01), (0x08FF, 0x00)]) = true := by decide +kernel

/-- `DEC R16`. -/
theorem test_dec_1 : runs
    (start .ref [(16, 0x80)] 0x00 0x0000 0x08FF [] [(0x0000, 0x950A)])
    (reads [(16, 0x7F)] 0x18 0x0001 0x08FF []) = true := by decide +kernel

/-- `DEC R16`. -/
theorem test_dec_2 : runs
    (start .ref [(16, 0x00)] 0x00 0x0000 0x08FF [] [(0x0000, 0x950A)])
    (reads [(16, 0xFF)] 0x14 0x0001 0x08FF []) = true := by decide +kernel

/-- `.dw 0x940B`. -/
theorem test_des_1 : faults
    (start .ref [] 0x00 0x0000 0x08FF [] [(0x0000, 0x940B)])
    (.reservedInstruction 0x940B) = true := by decide +kernel

/-- `JMP 0x1234`. -/
theorem test_jmp_1 : runs
    (start .ref [] 0x00 0x0010 0x08FF [] [(0x0010, 0x940C), (0x0011, 0x1234)])
    (reads [] 0x00 0x1234 0x08FF []) = true := by decide +kernel

/-- `JMP 0x031234`. -/
theorem test_jmp_2 : runs
    (start .ref [] 0x00 0x0010 0x08FF [] [(0x0010, 0x941D), (0x0011, 0x1234)])
    (reads [] 0x00 0x1234 0x08FF []) = true := by decide +kernel

/-- `CALL 0x0400`. -/
theorem test_call_1 : runs
    (start .ref [] 0x00 0x01FE 0x08FF [] [(0x01FE, 0x940E), (0x01FF, 0x0400)])
    (reads [] 0x00 0x0400 0x08FD [(0x08FE, 0x02), (0x08FF, 0x00)]) = true := by decide +kernel

/-- `ADIW R25:R24,1`. -/
theorem test_adiw_1 : runs
    (start .ref [(24, 0xFF), (25, 0xFF)] 0x00 0x0000 0x08FF [] [(0x0000, 0x9601)])
    (reads [(24, 0x00), (25, 0x00)] 0x03 0x0001 0x08FF []) = true := by decide +kernel

/-- `ADIW R31:R30,0`. -/
theorem test_adiw_2 : runs
    (start .ref [(30, 0x00), (31, 0x00)] 0x21 0x0000 0x08FF [] [(0x0000, 0x9630)])
    (reads [(30, 0x00), (31, 0x00)] 0x22 0x0001 0x08FF []) = true := by decide +kernel

/-- `SBIW R25:R24,1`. -/
theorem test_sbiw_1 : runs
    (start .ref [(24, 0x00), (25, 0x00)] 0x00 0x0000 0x08FF [] [(0x0000, 0x9701)])
    (reads [(24, 0xFF), (25, 0xFF)] 0x15 0x0001 0x08FF []) = true := by decide +kernel

/-- `SBIW R31:R30,1`. -/
theorem test_sbiw_2 : runs
    (start .ref [(30, 0x01), (31, 0x00)] 0x00 0x0000 0x08FF [] [(0x0000, 0x9731)])
    (reads [(30, 0x00), (31, 0x00)] 0x02 0x0001 0x08FF []) = true := by decide +kernel

/-- `MUL R16,R17`. -/
theorem test_mul_1 : runs
    (start .ref [(16, 0xFF), (17, 0xFF)] 0x00 0x0000 0x08FF [] [(0x0000, 0x9F01)])
    (reads [(0, 0x01), (1, 0xFE)] 0x01 0x0001 0x08FF []) = true := by decide +kernel

/-- `MUL R0,R1`. -/
theorem test_mul_2 : runs
    (start .ref [(0, 0x03), (1, 0x05)] 0x00 0x0000 0x08FF [] [(0x0000, 0x9C01)])
    (reads [(0, 0x0F), (1, 0x00)] 0x00 0x0001 0x08FF []) = true := by decide +kernel

/-- `IN R16,0x3F`. -/
theorem test_in_1 : runs
    (start .ref [] 0x80 0x0000 0x08FF [] [(0x0000, 0xB70F)])
    (reads [(16, 0x80)] 0x80 0x0001 0x08FF []) = true := by decide +kernel

/-- `IN R16,0x3E`. -/
theorem test_in_2 : runs
    (start .ref [] 0x00 0x0000 0x08FF [] [(0x0000, 0xB70E)])
    (reads [(16, 0x08)] 0x00 0x0001 0x08FF []) = true := by decide +kernel

/-- `OUT 0x3F,R16`. -/
theorem test_out_1 : runs
    (start .ref [(16, 0x80)] 0x00 0x0000 0x08FF [] [(0x0000, 0xBF0F)])
    (reads [] 0x80 0x0001 0x08FF []) = true := by decide +kernel

/-- `OUT 0x3D,R16`. -/
theorem test_out_2 : runs
    (start .ref [(16, 0x12)] 0x00 0x0000 0x08FF [] [(0x0000, 0xBF0D)])
    (reads [] 0x00 0x0001 0x0812 []) = true := by decide +kernel

/-- `RJMP +2`. -/
theorem test_rjmp_1 : runs
    (start .ref [] 0x00 0x0010 0x08FF [] [(0x0010, 0xC002)])
    (reads [] 0x00 0x0013 0x08FF []) = true := by decide +kernel

/-- `RJMP 0`. -/
theorem test_rjmp_2 : runs
    (start .ref [] 0x00 0x0010 0x08FF [] [(0x0010, 0xC000)])
    (reads [] 0x00 0x0011 0x08FF []) = true := by decide +kernel

/-- `RCALL +5`. -/
theorem test_rcall_1 : runs
    (start .ref [] 0x00 0x0123 0x08FF [] [(0x0123, 0xD005)])
    (reads [] 0x00 0x0129 0x08FD [(0x08FE, 0x01), (0x08FF, 0x24)]) = true := by decide +kernel

/-- `LDI R16,0xA5`. -/
theorem test_ldi_1 : runs
    (start .ref [] 0xFF 0x0000 0x08FF [] [(0x0000, 0xEA05)])
    (reads [(16, 0xA5)] 0xFF 0x0001 0x08FF []) = true := by decide +kernel

/-- `LDI R31,0x00`. -/
theorem test_ldi_2 : runs
    (start .ref [] 0x00 0x0000 0x08FF [] [(0x0000, 0xE0F0)])
    (reads [(31, 0x00)] 0x00 0x0001 0x08FF []) = true := by decide +kernel

/-- `BRBS 1,+3 (BREQ)`. -/
theorem test_brbs_1 : runs
    (start .ref [] 0x02 0x0010 0x08FF [] [(0x0010, 0xF019)])
    (reads [] 0x02 0x0014 0x08FF []) = true := by decide +kernel

/-- `BRBS 4,+1 (BRLT)`. -/
theorem test_brbs_2 : runs
    (start .ref [] 0x0C 0x0010 0x08FF [] [(0x0010, 0xF00C)])
    (reads [] 0x0C 0x0011 0x08FF []) = true := by decide +kernel

/-- `BRBC 1,-3 (BRNE)`. -/
theorem test_brbc_1 : runs
    (start .ref [] 0x00 0x0010 0x08FF [] [(0x0010, 0xF7E9)])
    (reads [] 0x00 0x000E 0x08FF []) = true := by decide +kernel

/-- `BRBC 7,+63 (BRID)`. -/
theorem test_brbc_2 : runs
    (start .ref [] 0x00 0x0010 0x08FF [] [(0x0010, 0xF5FF)])
    (reads [] 0x00 0x0050 0x08FF []) = true := by decide +kernel

/-- `BLD R16,7`. -/
theorem test_bld_1 : runs
    (start .ref [(16, 0x00)] 0x40 0x0000 0x08FF [] [(0x0000, 0xF907)])
    (reads [(16, 0x80)] 0x40 0x0001 0x08FF []) = true := by decide +kernel

/-- `BLD R16,0`. -/
theorem test_bld_2 : runs
    (start .ref [(16, 0xFF)] 0x00 0x0000 0x08FF [] [(0x0000, 0xF900)])
    (reads [(16, 0xFE)] 0x00 0x0001 0x08FF []) = true := by decide +kernel

/-- `BST R16,3`. -/
theorem test_bst_1 : runs
    (start .ref [(16, 0x08)] 0x00 0x0000 0x08FF [] [(0x0000, 0xFB03)])
    (reads [(16, 0x08)] 0x40 0x0001 0x08FF []) = true := by decide +kernel

/-- `BST R16,3`. -/
theorem test_bst_2 : runs
    (start .ref [(16, 0xF7)] 0xFF 0x0000 0x08FF [] [(0x0000, 0xFB03)])
    (reads [(16, 0xF7)] 0xBF 0x0001 0x08FF []) = true := by decide +kernel

/-- `SBRC R16,0`. -/
theorem test_sbrc_1 : runs
    (start .ref [(16, 0xFE)] 0x00 0x0010 0x08FF [] [(0x0010, 0xFD00), (0x0011, 0x0000)])
    (reads [] 0x00 0x0012 0x08FF []) = true := by decide +kernel

/-- `SBRC R16,0`. -/
theorem test_sbrc_2 : runs
    (start .ref [(16, 0x01)] 0x00 0x0010 0x08FF [] [(0x0010, 0xFD00), (0x0011, 0x0000)])
    (reads [] 0x00 0x0011 0x08FF []) = true := by decide +kernel

/-- `SBRS R16,7`. -/
theorem test_sbrs_1 : runs
    (start .ref [(16, 0x80)] 0x00 0x0010 0x08FF [] [(0x0010, 0xFF07), (0x0011, 0x940E), (0x0012, 0x0200)])
    (reads [] 0x00 0x0013 0x08FF []) = true := by decide +kernel

/-- `SBRS R16,7`. -/
theorem test_sbrs_2 : runs
    (start .ref [(16, 0x7F)] 0x00 0x0010 0x08FF [] [(0x0010, 0xFF07), (0x0011, 0x940E), (0x0012, 0x0200)])
    (reads [] 0x00 0x0011 0x08FF []) = true := by decide +kernel

/-- `.dw 0xFFFF`. -/
theorem test_reservedF808_1 : faults
    (start .ref [] 0x00 0x0000 0x08FF [] [(0x0000, 0xFFFF)])
    (.reservedInstruction 0xFFFF) = true := by decide +kernel

/-- The part of table T3a with 4 Mi words of flash, and the ELPM part (64 Ki words). -/
def avr6 : Cfg := Cfg.avr6

/-- The ELPM part of table T3a. -/
def elpmPart : Cfg := { Cfg.ref with elpmForm := .full, hasRampz := true, rampBits := 8 }

/-- Profile REF with a flash of 0x6000 words (table T3b). -/
def smallFlash : Cfg := { Cfg.ref with flashWords := 0x6000, pcBits := 15 }

/-- Profile REF with two interrupt sources (scenarios Q1 to Q4). -/
def twoSources : Cfg := { Cfg.ref with nIrq := 2 }

/-- `ST Z+,R5`, `ST -Z,R5` and `ST -X,R5` (rule R274). -/
theorem test_stZinc : runs
    (start .ref [(5, 0x42), (30, 0xFF), (31, 0x01)] 0x00 0x0000 0x08FF [] [(0x0000, 0x9251)])
    (reads [(5, 0x42), (30, 0x00), (31, 0x02)] 0x00 0x0001 0x08FF [(0x01FF, 0x42)]) = true := by decide +kernel

theorem test_stZdec : runs
    (start .ref [(5, 0x42), (30, 0x00), (31, 0x02)] 0x00 0x0000 0x08FF [] [(0x0000, 0x9252)])
    (reads [(5, 0x42), (30, 0xFF), (31, 0x01)] 0x00 0x0001 0x08FF [(0x01FF, 0x42)]) = true := by decide +kernel

theorem test_stXdec : runs
    (start .ref [(5, 0x42), (26, 0x00), (27, 0x02)] 0x00 0x0000 0x08FF [] [(0x0000, 0x925E)])
    (reads [(5, 0x42), (26, 0xFF), (27, 0x01)] 0x00 0x0001 0x08FF [(0x01FF, 0x42)]) = true := by decide +kernel

/-- Table T3b: SLEEP with and without SLEEP_ENABLED, WDR, the last word of a flash of 0x6000 words. -/
theorem test_sleep : runs (start .ref [] 0x00 0x0010 0x08FF [] [(0x0010, 0x9588)])
    (fun t => t.sleeping && t.pc == 0x0011) = true := by decide +kernel

theorem test_sleep_disabled : runs
    (start { Cfg.ref with sleepEnabled := false } [] 0x00 0x0010 0x08FF [] [(0x0010, 0x9588)])
    (fun t => !t.sleeping && t.pc == 0x0011) = true := by decide +kernel

theorem test_wdr : runs (start .ref [] 0x00 0x0000 0x08FF [] [(0x0000, 0x95A8)])
    (fun t => t.trace == [.watchdogReset] && t.pc == 0x0001) = true := by decide +kernel

theorem test_nop_last_word : runs (start smallFlash [] 0x00 0x5FFF 0x08FF [] [(0x5FFF, 0x0000)])
    (fun t => t.pc == 0x6000 && faults t (.fetchOutOfRange 0x6000)) = true := by decide +kernel

theorem test_lds_last_word : faults (start smallFlash [] 0x00 0x5FFF 0x08FF [] [(0x5FFF, 0x9100)])
    (.fetchOutOfRange 0x6000) = true := by decide +kernel

/-- SBI, CBI (rules R230, R231) read the platform's byte once and write it once; SBIC and SBIS (rules R365, R366) read it
once. What the byte is, nothing says. -/
theorem test_sbi : runs (start .ref [] 0xFF 0x0000 0x08FF [] [(0x0000, 0x9A05)])
    (fun t => t.draws == 1 && t.trace.length == 1 && t.sreg == 0xFF && t.pc == 0x0001) = true := by decide +kernel

theorem test_cbi : runs (start .ref [] 0xFF 0x0000 0x08FF [] [(0x0000, 0x98C6)])
    (fun t => t.draws == 1 && t.trace.length == 1 && t.sreg == 0xFF && t.pc == 0x0001) = true := by decide +kernel

theorem test_sbic : runs (start .ref [] 0x00 0x0000 0x08FF [] [(0x0000, 0x9931), (0x0001, 0x0000)])
    (fun t => t.draws == 1 && t.trace.isEmpty) = true := by decide +kernel

theorem test_sbis : runs (start .ref [] 0x00 0x0000 0x08FF [] [(0x0000, 0x9B62), (0x0001, 0x0000)])
    (fun t => t.draws == 1 && t.trace.isEmpty) = true := by decide +kernel

/-- Table T3a: ELPM in its three forms. -/
theorem test_elpm_form : runs
    ({ start elpmPart [(30, 0x01), (31, 0x00)] 0x00 0x0000 0x08FF [] [(0x0000, 0x95D8), (0x8000, 0xCAFE)] with
      rampz := 0x01 })
    (fun t => reads [(0, 0xCA), (30, 0x01), (31, 0x00)] 0x00 0x0001 0x08FF [] t && t.rampz == 0x01) = true := by
  decide +kernel

theorem test_elpmRdZ : runs
    ({ start elpmPart [(30, 0x00), (31, 0x00)] 0x00 0x0000 0x08FF [] [(0x0000, 0x9106), (0x8000, 0xCAFE)] with
      rampz := 0x01 })
    (reads [(16, 0xFE)] 0x00 0x0001 0x08FF []) = true := by decide +kernel

theorem test_elpmRdZinc : runs
    (start elpmPart [(30, 0xFF), (31, 0xFF)] 0x00 0x0000 0x08FF [] [(0x0000, 0x9107), (0x7FFF, 0x1234)])
    (fun t => reads [(16, 0x12), (30, 0x00), (31, 0x00)] 0x00 0x0001 0x08FF [] t && t.rampz == 0x01) = true := by
  decide +kernel

/-- Table T3a: EIJMP, EICALL, CALL and RET of the part with a three-byte return address. -/
theorem test_eijmp_form : runs
    ({ start avr6 [(30, 0x45), (31, 0x23)] 0x00 0x0000 0x21FF [] [(0x0000, 0x9419)] with eind := 0x01 })
    (fun t => t.pc == 0x012345) = true := by decide +kernel

theorem test_eicall : runs
    ({ start avr6 [(30, 0x10), (31, 0x00)] 0x00 0x012345 0x21FF [] [(0x012345, 0x9519)] with eind := 0x02 })
    (reads [] 0x00 0x020010 0x21FC [(0x21FF, 0x46), (0x21FE, 0x23), (0x21FD, 0x01)]) = true := by decide +kernel

theorem test_ret_three_bytes : runs
    (start avr6 [] 0x00 0x0000 0x21FC [(0x21FD, 0xC1), (0x21FE, 0x23), (0x21FF, 0x46)] [(0x0000, 0x9508)])
    (reads [] 0x00 0x012346 0x21FF []) = true := by decide +kernel

/-- Table T3a: XCH, LAS, LAC and LAT. -/
theorem test_xch : runs
    (start .xmegaRmw [(16, 0xAA), (30, 0x00), (31, 0x20)] 0xFF 0x0000 0x27FF [(0x2000, 0x55)] [(0x0000, 0x9304)])
    (reads [(16, 0x55)] 0xFF 0x0001 0x27FF [(0x2000, 0xAA)]) = true := by decide +kernel

theorem test_las : runs
    (start .xmegaRmw [(16, 0x0F), (30, 0x00), (31, 0x20)] 0x00 0x0000 0x27FF [(0x2000, 0x55)] [(0x0000, 0x9305)])
    (reads [(16, 0x55)] 0x00 0x0001 0x27FF [(0x2000, 0x5F)]) = true := by decide +kernel

theorem test_lac : runs
    (start .xmegaRmw [(16, 0x0F), (30, 0x00), (31, 0x20)] 0x00 0x0000 0x27FF [(0x2000, 0x55)] [(0x0000, 0x9306)])
    (reads [(16, 0x55)] 0x00 0x0001 0x27FF [(0x2000, 0x50)]) = true := by decide +kernel

theorem test_lat : runs
    (start .xmegaRmw [(16, 0x0F), (30, 0x00), (31, 0x20)] 0x00 0x0000 0x27FF [(0x2000, 0x55)] [(0x0000, 0x9307)])
    (reads [(16, 0x55)] 0x00 0x0001 0x27FF [(0x2000, 0x5A)]) = true := by decide +kernel

/-- Rule R265 (table T3a): a pointer update carries into its RAMP register. -/
theorem test_ldXinc_ramp : runs
    ({ start { Cfg.xmegaRmw with ramEnd := 0xFFFF } [(26, 0xFF), (27, 0xFF)] 0x00 0x0000 0x27FF [(0x00FFFF, 0x77)]
      [(0x0000, 0x900D)] with rampx := 0x00 })
    (fun t => reads [(0, 0x77), (26, 0x00), (27, 0x00)] 0x00 0x0001 0x27FF [] t && t.rampx == 0x01) = true := by
  decide +kernel

/-- Table T3a: the one-word LDS and STS, and the words AVRtiny lacks. -/
theorem test_ldsTiny : runs (start .avrTiny [] 0x00 0x0000 0x00BF [(0x00BF, 0x11)] [(0x0000, 0xA6FF)])
    (reads [(31, 0x11)] 0x00 0x0001 0x00BF []) = true := by decide +kernel

theorem test_stsTiny : runs (start .avrTiny [(16, 0x33)] 0x00 0x0000 0x00BF [] [(0x0000, 0xA900)])
    (reads [(16, 0x33)] 0x00 0x0001 0x00BF [(0x0040, 0x33)]) = true := by decide +kernel

theorem test_add_low_register_on_tiny : faults (start .avrTiny [] 0x00 0x0000 0x00BF [] [(0x0000, 0x0C01)])
    (.reservedInstruction 0x0C01) = true := by decide +kernel

/-- Table T3a: the hardware stack of AVR1. -/
theorem test_rcall_avr1 : runs (start .avr1 [] 0x00 0x0023 0x0000 [] [(0x0023, 0xD005)])
    (fun t => t.pc == 0x0029 && t.hwStack == [0x0024]) = true := by decide +kernel

theorem test_hardware_stack_full : faults
    { start .avr1 [] 0x00 0x0030 0x0000 [] [(0x0030, 0xD000)] with hwStack := [0x0003, 0x0002, 0x0001] }
    .hardwareStackOverflow = true := by decide +kernel

theorem test_hardware_stack_empty : faults (start .avr1 [] 0x00 0x0000 0x0000 [] [(0x0000, 0x9508)])
    .hardwareStackUnderflow = true := by decide +kernel

/-- Table T3a: the three instructions the spec declines to model. -/
theorem test_des_refused : refuses (start .xmegaRmw [] 0x00 0x0000 0x27FF [] [(0x0000,
        0x940B)]) .unmodelledDes = true := by
  decide +kernel

theorem test_break_refused : refuses (start avr6 [] 0x00 0x0000 0x21FF [] [(0x0000,
        0x9598)]) .unmodelledBreak = true := by
  decide +kernel

theorem test_spm_refused : refuses (start avr6 [] 0x00 0x0000 0x21FF [] [(0x0000,
        0x95E8)]) .unmodelledSpm = true := by
  decide +kernel

theorem test_spmZinc_refused : refuses (start .xmegaRmw [] 0x00 0x0000 0x27FF [] [(0x0000,
        0x95F8)]) .unmodelledSpm = true := by
  decide +kernel

/-! ### Interrupts: scenarios Q1 to Q5 -/

/-- The start of Q1 with the given sources presented. -/
def irqStart (sreg : Byte) (presented : List Nat) : State :=
  { start twoSources [] sreg 0x0123 0x08FF [] [(0x0123, 0x0000)] with
    inputs := [{ pending := presented, presented := presented }] }

/-- Q1: entry. -/
theorem test_irq_entry : runs (irqStart 0x83 [2])
    (fun t => reads [] 0x03 0x0004 0x08FD [(0x08FF, 0x23), (0x08FE, 0x01)] t && t.trace == [.irqTaken 2]) = true := by
  decide +kernel

/-- Q2: the lowest number first, the other stays pending. -/
theorem test_irq_priority : runs (irqStart 0x83 [2, 1])
    (fun t => t.pc == 0x0002 && t.trace == [.irqTaken 1] && t.pending.contains 2) = true := by decide +kernel

/-- Q3: masked. -/
theorem test_irq_masked : runs (irqStart 0x03 [2])
    (fun t => t.pc == 0x0124 && t.trace.isEmpty && t.pending == [2]) = true := by decide +kernel

/-- Q4, step 2: the hold-off lets SLEEP execute first. -/
theorem test_irq_held_off : runs
    { start twoSources [] 0x80 0x0011 0x08FF [] [(0x0011, 0x9588)] with
      inputs := [{ pending := [1], presented := [1] }], irqInhibit := true }
    (fun t => t.sleeping && t.pc == 0x0012 && !t.irqInhibit) = true := by decide +kernel

/-- Q4, step 3: the wake-up. -/
theorem test_irq_wakes : runs
    { start twoSources [] 0x80 0x0012 0x08FF [] [] with
      inputs := [{ pending := [1], presented := [1] }], sleeping := true }
    (fun t => reads [] 0x00 0x0002 0x08FD [(0x08FF, 0x12), (0x08FE,
        0x00)] t && !t.sleeping) = true := by decide +kernel

/-- Q5, step 1: a write of SPL on XMEGA starts the hold-off. -/
theorem test_spl_hold_off : runs (start .xmegaRmw [(16, 0x00)] 0x80 0x0100 0x27FF [] [(0x0100, 0xBF0D)])
    (fun t => t.sp == 0x2700 && t.irqInhibit && t.pc == 0x0101) = true := by decide +kernel

/-- The first instruction of a placed program runs as the first step after reset: `LDI R17,7`, `JMP 0x031234` cut to 16
bits of pc (REF), and a word of no instruction. -/
theorem test_first_step : runs (State.reset.withFetchWord 16 0xE017) (fun t => t.reg 17 == 7 && t.pc == 1) = true := by
  decide +kernel

theorem test_first_step_two_words : runs (State.reset.withFetchWord 32 0x1234941D)
    (fun t => t.pc == 0x1234) = true := by decide +kernel

theorem test_table_word : decodeTableWord 32 0xD0ED9160 = some (.lds 22 0xD0ED) ∧
    decodeTableWord 16 0x9160 = some (.lds 22 0x0000) := by decide +kernel

/-! ## Ill-formed instructions: one for each check of `Instr.wellFormed` -/

/-- An immediate on a low register; MULSU and FMUL outside R16 to R23; odd pairs; a pair below R24; a one-word LDS outside
0x40 to 0xBF; a reserved row with a word of another row. -/
theorem test_ill_formed : [Instr.ldi 15 0, .subi 0 1, .muls 15 16, .muls 16 15, .mulsu 24 16, .mulsu 15 16,
        .mulsu 16 24, .fmul 16 24,
    .fmuls 24 16, .fmulsu 16 15, .movw 1 0, .movw 0 1, .adiw 22 0, .adiw 25 0, .sbiw 31 0, .ldsTiny 15 0x40,
    .ldsTiny 16 0x3F, .stsTiny 16 0xC0, .unlisted0000 0x0000, .unlisted0000 0x0100, .unlistedLd0011 0x9203,
    .unlistedLd1000 0x9009, .unlistedLd1011 0x9008, .unlistedSt0011 0x9003, .unlistedSt1000 0x9209,
        .unlistedSt1011 0x9208,
    .reserved9404 0x9405, .reserved9528 0x9508, .reserved9548 0x9588, .reserved95b8 0x95A8, .unlisted94x9 0x9409,
    .unlisted94x9 0x9519, .unlisted95xB 0x940B, .reservedF808 0xF800].all (fun i => !i.wellFormed) = true := by
  decide +kernel

/-- The boundary operands of the same checks are well-formed. -/
theorem test_well_formed : [Instr.ldi 16 0, .muls 31 16, .mulsu 23 16, .fmul 16 23, .movw 30 0, .adiw 24 0,
        .sbiw 30 63,
    .ldsTiny 16 0x40, .stsTiny 31 0xBF, .unlisted0000 0x00FF,
        .unlisted94x9 0x95F9].all (fun i => i.wellFormed) = true := by
  decide +kernel

/-! ## The variants and the memory after reset -/

/-- The statements that assume only a variant of the family: ResetInvariant, ResetValues, DataAddressMaps, PcAdvance,
PointerHelpers, JumpResults, CallResults, BranchResults. -/
theorem test_witness_variants_valid : [Cfg.ref, .avr1, .avr2, .avr25, .avr3, .avr4, .avr5, .avr51, .avr6, .xmega,
      .xmegaRmw, .avrTiny, elpmPart, smallFlash, twoSources, { Cfg.avr1 with lpmForm := .absent },
      { Cfg.avr1 with lpmForm := .full }].all
    (fun c => c.valid) = true := by decide +kernel

/-- Records that tables R6, R7 and R9 of 00_scope.md and R76 to R78 and R83 of 20_memory.md rule out. -/
theorem test_no_variants : [{ Cfg.ref with dataAddrBits := 24 }, { Cfg.ref with hasRampz := true },
      { Cfg.ref with platformRegions := [{ first := 0x8000, last := 0x1FFFF, writable := true }] },
      { Cfg.ref with spBits := 8, spReset := 0xFF }, { Cfg.ref with hasJmpCall := false },
      { Cfg.xmega with hasJmpCall := false, flashWords := 0x1000, pcBits := 12, pcStackBytes := 2, hasEind := false },
      { Cfg.xmega with ramStart := 0x1000 }, { Cfg.xmega with platformRegions := [] },
      { Cfg.avrTiny with ramStart := 0x60 }, { Cfg.avrTiny with ldsStsForm := .absent },
      { Cfg.avrTiny with platformRegions := [{ first := 0x4FFF, last := 0x4FFF, writable := true }] },
      { Cfg.avr1 with platformRegions := [{ first := 0x60, last := 0x60, writable := false }] },
      { Cfg.avr2 with platformRegions := [{ first := 0xFF, last := 0xFF, writable := true }] }].all
    (fun c => !c.valid) = true := by decide +kernel

theorem test_reset_memory_wf : Memory.wf .data State.reset.dm = true ∧ Memory.wf .program State.reset.pm = true := by decide

/-- Writing what an unlisted address reads as removes the entry: equal memories are equal data. -/
theorem test_memory_canonical : Memory.write .program (Memory.write .program [] 7 0x12) 7 0xFF = [] := by decide +kernel

/-! ## For each statement with hypotheses, a state that meets them -/

/-- A read that answers. -/
theorem reads_of {s : State} {addr : DataAddr} {v : Byte}
    (h : (match s.memRead addr with | .ok (x, _) => x == v | .error _ => false) = true) : ReadsAs s addr v := by
  split at h
  · rename_i x t e
    rw [beq_iff_eq] at h
    exact (State.memRead_ok_iff.1 (h ▸ e)).1
  · cases h

/-- A read that stops. -/
theorem stops_of {s : State} {addr : DataAddr} {f : Fault}
    (h : (match s.memRead addr with | .ok _ => false | .error g => g == f) = true) : ReadStops s addr f := by
  split at h
  · cases h
  · rename_i g e
    rw [beq_iff_eq] at h
    exact State.memRead_error_iff.1 (h ▸ e)

/-- Somewhere to store. -/
theorem storable_of {c : Cfg} {addr : DataAddr}
    (h : (regionOf c addr != .outer || c.inWritablePlatform addr.toNat) = true) : Storable c addr := by
  intro he
  simpa [he] using h

/-- Nowhere to store. -/
theorem not_storable_of {c : Cfg} {addr : DataAddr}
    (h : (regionOf c addr == .outer && !c.inWritablePlatform addr.toNat) = true) : ¬ Storable c addr := by
  intro hs
  simp only [Bool.and_eq_true, beq_iff_eq, Bool.not_eq_true'] at h
  simp [hs h.1] at h

/-- A step that fetches: awake, and nothing presented. -/
theorem fetches_of {s : State} (h : (!s.sleeping && (interruptFor s.boundary.1 s.boundary.2).isNone) = true) :
    FetchesNext s := by
  simp only [Bool.and_eq_true, Bool.not_eq_true', Option.isNone_iff_eq_none] at h
  exact ⟨h.1, .inl h.2⟩

/-- REF with two bytes of SRAM, Z at the first, and a program of one instruction. -/
def demo : State := start .ref [(26, 0x00), (27, 0x01), (28, 0x00), (29, 0x01), (30, 0x00), (31,
        0x01)] 0x00 0x0000 0x08FD
  [(0x0100, 0x5A), (0x08FE, 0x34), (0x08FF, 0x12)] [(0x0000, 0x0F01)]

/-- XMEGA with Z at a byte of SRAM. -/
def demoXmega : State := start .xmegaRmw [(30, 0x00), (31, 0x20)] 0x00 0x0000 0x27FF [(0x2000, 0x55)] []

/-- AVRtiny with a byte of SRAM. -/
def demoTiny : State := start .avrTiny [] 0x00 0x0000 0x00BF [(0x0040, 0x5A)] []

theorem test_witness_DecodeInvertsEncode :
    ((Instr.lds 31 0xFFFF).wellFormed = true ∧ (Instr.lds 31 0xFFFF).isTinyForm = false) ∧
    ((Instr.ldsTiny 16 0x40).wellFormed = true ∧ (Instr.ldsTiny 16 0x40).isTinyForm = true) ∧
    ((Instr.lddZ 31 0).wellFormed = true ∧ (Instr.lddZ 31 0).firstWord.extractLsb' 12 4 ≠ 0b1010#4) := by decide

theorem test_witness_StepRunsTheInstruction : FetchesNext demo ∧ demo.boundary.1.progWord demo.pc = .ok 0x0F01 ∧
    decodeWords false 0x0F01 0 = .ok (.add 16 17) ∧ (Instr.add 16 17).wellFormed = true ∧
    (Instr.add 16 17).presentOn demo.cfg = true ∧ isTwoWord 0x0F01 = false :=
  ⟨fetches_of (by decide +kernel), by rfl, by rfl, by rfl, by rfl, by rfl⟩

theorem test_witness_FetchStops :
    (FetchesNext (start smallFlash [] 0 0x6000 0 [] []) ∧ smallFlash.flashWords ≤ (0x6000 : ProgAddr).toNat) ∧
    (FetchesNext (start .ref [] 0 0 0 [] [(0, 0x9106)]) ∧ (start .ref [] 0 0 0 [] [(0,
        0x9106)]).progWord 0 = .ok 0x9106 ∧
      decodeWords false 0x9106 0 = .ok (.elpmRdZ 16) ∧ (Instr.elpmRdZ 16).presentOn Cfg.ref = false) ∧
    (FetchesNext (start smallFlash [] 0 0x5FFF 0 [] [(0x5FFF, 0x9100)]) ∧
      (start smallFlash [] 0 0x5FFF 0 [] [(0x5FFF, 0x9100)]).progWord 0x5FFF = .ok 0x9100 ∧ isTwoWord 0x9100 = true ∧
      smallFlash.flashWords ≤ ((start smallFlash [] 0 0x5FFF 0 [] [(0x5FFF, 0x9100)]).pcPlus 1).toNat) :=
  ⟨⟨fetches_of (by decide +kernel), by decide⟩,
    ⟨fetches_of (by decide +kernel), by rfl, by rfl, by rfl⟩,
    fetches_of (by decide +kernel), by rfl, by rfl, by decide +kernel⟩

theorem test_witness_NoInstructionStops : isNoInstruction 0x0001 = true ∧ isNoInstruction 0xFFFF = true ∧
    FetchesNext State.reset ∧ State.reset.progWord State.reset.pc = .ok 0xFFFF :=
  ⟨by decide, by decide, fetches_of (by decide +kernel), by rfl⟩

theorem test_witness_AbsentAndUnmodelledStops : Instr.elpm.presentOn Cfg.ref = false ∧ Cfg.xmegaRmw.hasDes = true ∧
    Cfg.avr6.hasBreak = true ∧ Cfg.avr6.spmForm ≠ .absent ∧ Cfg.xmegaRmw.spmForm = .plainAndZinc := by decide

theorem test_witness_InterruptEntry :
    ((irqStart 0x83 [2, 1]).cfg.valid = true ∧ (irqStart 0x83 [2, 1]).irqInhibit = false ∧
      interruptFor (irqStart 0x83 [2, 1]).boundary.1 (irqStart 0x83 [2, 1]).boundary.2 = some 1 ∧
      ∃ u, ({ (irqStart 0x83 [2, 1]).boundary.1 with sleeping := false } : State).pushPc 0x0123 = .ok u) ∧
    (let s := { irqStart 0x83 [2] with sp := 0x0900 };
      interruptFor s.boundary.1 s.boundary.2 = some 2 ∧
      ({ s.boundary.1 with sleeping := false } : State).pushPc 0x0123 = .error (.dataAccessOutOfRange 0x0900)) :=
  ⟨⟨by decide +kernel, by rfl, by rfl, ⟨_, by rfl⟩⟩, by rfl, by rfl⟩

theorem test_witness_InterruptsOnlyAtBoundaries :
    (∃ t, step (irqStart 0x83 [2]) = .next t ∧ t.trace = [.irqTaken 2]) ∧
    (∃ t, exec .wdr demo = .next t ∧ demo.trace.length < t.trace.length) :=
  ⟨⟨_, by rfl, by rfl⟩, _, by rfl, by decide⟩

theorem test_witness_SleepHolds :
    (let s := { demo with sleeping := true };
      s.sleeping = true ∧ interruptFor s.boundary.1 s.boundary.2 = none) ∧
    (let s := { irqStart 0x83 [2] with sleeping := true, irqInhibit := true };
      s.sleeping = true ∧ interruptFor s.boundary.1 s.boundary.2 = some 2 ∧ s.irqInhibit = true ∧
      s.progWord s.pc = .ok 0x0000 ∧ decodeWords false 0x0000 0 = .ok .nop ∧ Instr.nop.presentOn s.cfg = true) :=
  ⟨⟨by rfl, by rfl⟩, by rfl, by rfl, by rfl, by rfl, by rfl, by rfl⟩

theorem test_witness_HoldOffSources :
    demo.cfg.isXmega = false ∧
    ∃ t, exec (.bset 7) demo = .next t ∧ demo.irqInhibit = false ∧ t.irqInhibit = true :=
  ⟨by rfl, _, by rfl, by rfl, by rfl⟩

theorem test_witness_QuiescentStays :
    ({ demo with sleeping := true } : State).Quiescent ∧ (start .ref [] 0 0 0 [] [(0, 0xCFFF)]).Quiescent ∧
    demo.pc.toNat < 2 ^ demo.cfg.pcBits ∧ demo.cfg.pcBits ≤ 22 :=
  ⟨⟨.inl (by rfl), .inl (by rfl)⟩, ⟨.inr (by rfl), .inr (by rfl)⟩, by decide +kernel, by decide⟩

theorem test_witness_StepKeepsInvariant : (irqStart 0x83 [2]).Inv = true ∧ (∃ t, step (irqStart 0x83 [2]) = .next t) ∧
    demo.Inv = true ∧ (∃ t, step demo = .next t) ∧ demoXmega.Inv = true ∧ demoTiny.Inv = true :=
  ⟨by decide +kernel, ⟨_, by rfl⟩, by decide +kernel, ⟨_, by rfl⟩, by decide +kernel, by decide +kernel⟩

/-- The addresses at both ends of each range of the maps. -/
theorem test_witness_DataAddressMaps :
    (regionOf .ref 0x1F = .register 31 ∧ regionOf .ref 0x20 = .io 0 ∧ regionOf .ref 0x5F = .io 63 ∧
      regionOf .ref 0x60 = .extIo ∧ regionOf .ref 0xFF = .extIo ∧ regionOf .ref 0x100 = .ram ∧
      regionOf .ref 0x8FF = .ram ∧ regionOf .ref 0x900 = .outer) ∧
    (let c := { Cfg.avr2 with ramStart := 0x61, ramEnd := 0xFE, spBits := 8, spReset := 0xFE };
      c.valid = true ∧ regionOf c 0x60 = .outer ∧ regionOf c 0x61 = .ram ∧ regionOf c 0xFE = .ram ∧
      regionOf c 0xFF = .outer) ∧
    (regionOf .xmegaRmw 0x3F = .io 63 ∧ regionOf .xmegaRmw 0x40 = .extIo ∧ regionOf .xmegaRmw 0xFFF = .extIo ∧
      answeredByPlatform .xmegaRmw 0x1000 = true ∧ answeredByPlatform .xmegaRmw 0x1FFF = true ∧
      regionOf .xmegaRmw 0x2000 = .ram ∧ regionOf .xmegaRmw 0x27FF = .ram ∧ regionOf .xmegaRmw 0x2800 = .outer) ∧
    (regionOf .avrTiny 0x3F = .io 63 ∧ regionOf .avrTiny 0x40 = .ram ∧ regionOf .avrTiny 0xBF = .ram ∧
      Cfg.avrTiny.inFlashWindow 0x3FFF = false ∧ Cfg.avrTiny.inFlashWindow 0x4000 = true ∧
      Cfg.avrTiny.inFlashWindow 0x4FFF = true ∧ Cfg.avrTiny.inFlashWindow 0x5000 = false) ∧
    (regionOf .avr1 0x1F = .register 31 ∧ regionOf .avr1 0x5F = .io 63 ∧ regionOf .avr1 0x60 = .outer) := by
  decide +kernel

theorem test_witness_RamReadsBack : inRam Cfg.ref 0x0100 ∧ inRam Cfg.ref 0x08FF := ⟨by rfl, by rfl⟩

theorem test_witness_CpuRegistersReadBack : Cfg.ref.valid = true ∧ Cfg.ref.stackKind = .dataSpace ∧ Cfg.ref.spBits = 16 ∧
    (let c := { Cfg.ref with spBits := 8, ramEnd := 0xDF, ramStart := 0x60, hasExtIo := false, spReset := 0xDF };
      c.valid = true ∧ c.spBits = 8) := by decide +kernel

theorem test_witness_PushAndPopBytes : Storable Cfg.ref 0x08FF ∧ ¬ Storable Cfg.ref 0x0900 ∧
    ReadsAs { demo with sp := 0x08FE } 0x08FE 0x34 ∧
    ReadStops { demo with sp := 0x0101 } 0x0101 (.readOfUnspecified 0x0101) :=
  ⟨storable_of (by decide +kernel), not_storable_of (by decide +kernel), reads_of (by decide +kernel),
    stops_of (by decide +kernel)⟩

theorem test_witness_PushAndPopReturnAddress :
    (Cfg.avr6.valid = true ∧ (0x3FFFFF : ProgAddr).toNat < 2 ^ Cfg.avr6.pcBits ∧ Cfg.avr6.stackKind = .dataSpace ∧
      ∀ k < 3, inRam Cfg.avr6 (BitVec.ofNat 24 (0x21FF - k))) ∧
    (Cfg.avr1.valid = true ∧ Cfg.avr1.stackKind = .hardware3 ∧ (0x1FF : ProgAddr).toNat < 2 ^ Cfg.avr1.pcBits) :=
  ⟨⟨by decide +kernel, by decide +kernel, by rfl, by unfold inRam; decide +kernel⟩, by decide +kernel, by rfl,
    by decide +kernel⟩

theorem test_witness_PointerHelpers : Ptr.z.ramp.present .avr6 = true ∧ Ptr.x.ramp.present .avr6 = false ∧
    (0xFFFF : DataAddr).toNat < 2 ^ Ptr.width Cfg.ref .x ∧
    (0xFFFFFF : DataAddr).toNat < 2 ^ Ptr.width Cfg.xmegaRmw .x ∧ (0xFFFF : DataAddr).toNat < 2 ^ Cfg.ref.dataAddrBits := by
  decide +kernel

theorem test_witness_ProgramBytes : (0x5FFF : ProgAddr).toNat < smallFlash.flashWords ∧ 0xBFFF / 2 < smallFlash.flashWords ∧
    smallFlash.flashWords ≤ (0x6000 : ProgAddr).toNat ∧ smallFlash.flashWords ≤ 0xC000 / 2 := by decide

/-- The statements that assume only that the variant has the instruction: AddResults, SubtractResults, CompareResults,
ComplementResults, LogicResults, IncrementResults, WordResults, ProductResults, FractionResults, ShiftLeftAliases,
TestClearSetAliases, ShiftResults, BitCopyResults, MoveResults, InOutResults, JumpResults, SkipResults (the states are
any). -/
theorem test_witness_present_on_ref : [Instr.add 0 31, .adc 0 31, .sub 0 31, .sbc 0 31, .cp 0 31, .cpc 0 31,
        .neg 0, .com 31,
    .and 0 31, .or 0 31, .eor 0 31, .inc 0, .dec 31, .mul 0 31, .lsr 0, .ror 31, .asr 0, .swap 31, .bst 0 7,
        .bld 31 0,
    .mov 0 31, .lds 0 0, .sts 31 0xFFFF, .lddZ 0 63, .lddY 31 0, .ldX 0, .stdZ 0 63, .stdY 31 0, .stX 31,
    .lpm, .lpmRdZ 31, .lpmRdZinc 29, .in_ 31 0x3F, .out 0 0, .push 0, .pop 31, .cpse 0 31, .sbrc 31 7, .sbrs 0 0].all
    (fun i => i.presentOn .ref) = true ∧
    Cfg.ref.hasWordOps = true ∧ Cfg.ref.hasMul = true ∧ Cfg.ref.hasMovw = true ∧ Cfg.ref.hasIjmpIcall = true ∧
    Cfg.ref.hasJmpCall = true ∧ Cfg.avr6.hasEind = true ∧ Cfg.avr6.hasRampz = true ∧ Cfg.avr6.rampBits ≤ 8 := by
  decide +kernel

theorem test_witness_DirectLoads :
    ((Instr.lds 0 0x0100).presentOn demo.cfg = true ∧ ReadsAs demo (dataAddr demo.cfg (demo.ramp .d ++ 0x0100#16)) 0x5A ∧
      ReadStops demo (dataAddr demo.cfg (demo.ramp .d ++ 0x0900#16)) (.dataAccessOutOfRange 0x0900)) ∧
    ((Instr.ldsTiny 16 0x40).presentOn demoTiny.cfg = true ∧
      ReadsAs demoTiny (dataAddr demoTiny.cfg ((0x40#8).setWidth 24)) 0x5A ∧
      ReadStops demoTiny (dataAddr demoTiny.cfg ((0x41#8).setWidth 24)) (.readOfUnspecified 0x41)) :=
  ⟨⟨by rfl, reads_of (by decide +kernel), stops_of (by decide +kernel)⟩, by rfl, reads_of (by decide +kernel),
    stops_of (by decide +kernel)⟩

theorem test_witness_DirectStores :
    ((Instr.sts 31 0x08FF).presentOn demo.cfg = true ∧ Storable demo.cfg (dataAddr demo.cfg (demo.ramp .d ++ 0x08FF#16)) ∧
      ¬ Storable demo.cfg (dataAddr demo.cfg (demo.ramp .d ++ 0x0900#16))) ∧
    ((Instr.stsTiny 31 0xBF).presentOn demoTiny.cfg = true ∧
      Storable demoTiny.cfg (dataAddr demoTiny.cfg ((0xBF#8).setWidth 24)) ∧
      ¬ Storable { Cfg.avrTiny with ramEnd := 0xBE } (dataAddr demoTiny.cfg ((0xBF#8).setWidth 24))) :=
  ⟨⟨by rfl, storable_of (by decide +kernel), not_storable_of (by decide +kernel)⟩, by rfl,
    storable_of (by decide +kernel), not_storable_of (by decide +kernel)⟩

theorem test_witness_IndirectLoads : (Instr.lddZ 0 0).presentOn demo.cfg = true ∧
    ReadsAs demo (dataAddr demo.cfg (demo.ptrPlus .z ((0#6).setWidth 24))) 0x5A ∧
    ReadsAs demo (dataAddr demo.cfg (demo.ptrPlus .y ((0#6).setWidth 24))) 0x5A ∧
    ReadsAs demo (dataAddr demo.cfg (demo.ptrGet .x)) 0x5A ∧
    ReadStops demo (dataAddr demo.cfg (demo.ptrPlus .z ((63#6).setWidth 24))) (.readOfUnspecified 0x013F) :=
  ⟨by rfl, reads_of (by decide +kernel), reads_of (by decide +kernel), reads_of (by decide +kernel),
    stops_of (by decide +kernel)⟩

theorem test_witness_IndirectStores : (Instr.stdZ 0 63).presentOn demo.cfg = true ∧
    Storable demo.cfg (dataAddr demo.cfg (demo.ptrPlus .z ((63#6).setWidth 24))) ∧
    Storable demo.cfg (dataAddr demo.cfg (demo.ptrGet .x)) ∧
    (let s := start .ref [(30, 0xFF), (31, 0x08)] 0 0 0 [] [];
      ¬ Storable s.cfg (dataAddr s.cfg (s.ptrPlus .z ((1#6).setWidth 24)))) :=
  ⟨by rfl, storable_of (by decide +kernel), storable_of (by decide +kernel), not_storable_of (by decide +kernel)⟩

theorem test_witness_UpdatingLoads : (updatingLoad true .x 25).presentOn demo.cfg = true ∧ (25 : Reg) ≠ Ptr.x.low ∧
    (25 : Reg) ≠ Ptr.x.low + 1 ∧ ReadsAs demo (dataAddr demo.cfg (demo.ptrGet .x)) 0x5A ∧
    (let s := start .ref [(26, 0x01), (27, 0x01)] 0 0 0 [(0x0100, 0x5A)] [];
      ReadsAs s (dataAddr s.cfg (s.ptrPlus .x (-1))) 0x5A ∧
      ReadStops s (dataAddr s.cfg (s.ptrGet .x)) (.readOfUnspecified 0x0101)) :=
  ⟨by rfl, by decide, by decide, reads_of (by decide +kernel), reads_of (by decide +kernel),
        stops_of (by decide +kernel)⟩

theorem test_witness_UpdatingStores : (updatingStore false .z 0).presentOn demo.cfg = true ∧ (0 : Reg) ≠ Ptr.z.low ∧
    (0 : Reg) ≠ Ptr.z.low + 1 ∧ Storable demo.cfg (dataAddr demo.cfg (demo.ptrGet .z)) ∧
    Storable demo.cfg (dataAddr demo.cfg (demo.ptrPlus .z (-1))) ∧
    (let s := start .ref [(30, 0x00), (31, 0x09)] 0 0 0 [] [];
      Storable s.cfg (dataAddr s.cfg (s.ptrPlus .z (-1))) ∧ ¬ Storable s.cfg (dataAddr s.cfg (s.ptrGet .z))) :=
  ⟨by rfl, by decide, by decide, storable_of (by decide +kernel), storable_of (by decide +kernel),
    storable_of (by decide +kernel), not_storable_of (by decide +kernel)⟩

theorem test_witness_PointerHalfStops : (26 : Reg) = Ptr.x.low ∧ (27 : Reg) = Ptr.x.low + 1 ∧
    (updatingLoad true .x 26).presentOn Cfg.ref = true ∧ (updatingStore false .y 29).presentOn Cfg.ref = true ∧
    (Instr.lpmRdZinc 30).presentOn Cfg.ref = true ∧ (Instr.elpmRdZinc 31).presentOn elpmPart = true := by decide

theorem test_witness_ProgramLoads : (Instr.lpmRdZinc 29).presentOn smallFlash = true ∧
    ((start smallFlash [(30, 0xFF), (31, 0xBF)] 0 0 0 [] []).pair 30).toNat / 2 < smallFlash.flashWords ∧
    smallFlash.flashWords ≤ ((start smallFlash [(30, 0x00), (31,
        0xC0)] 0 0 0 [] []).pair 30).toNat / 2 := by decide +kernel

theorem test_witness_ExtendedProgramLoads : elpmPart.hasRampz = true ∧ elpmPart.rampBits ≤ 8 ∧
    (Instr.elpmRdZinc 29).presentOn elpmPart = true ∧
    (let s := { start elpmPart [(30, 0xFF), (31, 0xFF)] 0 0 0 [] [] with rampz := 0x01 };
      ((s.ramp .z).toNat * 65536 + (s.pair 30).toNat) / 2 < s.cfg.flashWords) ∧
    (let s := { start elpmPart [] 0 0 0 [] [] with rampz := 0x02 };
      s.cfg.flashWords ≤ ((s.ramp .z).toNat * 65536 + (s.pair 30).toNat) / 2) := by decide +kernel

theorem test_witness_PushPopResults : Storable demo.cfg (demo.spVal.setWidth 24) ∧ ¬ Storable Cfg.ref ((0x0900#16).setWidth 24) ∧
    ReadsAs { demo with sp := lowBits demo.cfg.spBits (demo.spVal + 1) } 0x08FE 0x34 ∧
    (let s := { demo with sp := 0x08FF };
      ReadStops { s with sp := lowBits s.cfg.spBits (s.spVal + 1) } 0x0900 (.dataAccessOutOfRange 0x0900)) :=
  ⟨storable_of (by decide +kernel), not_storable_of (by decide +kernel), reads_of (by decide +kernel),
    stops_of (by decide +kernel)⟩

theorem test_witness_AtomicResults : (Instr.xch 31).presentOn demoXmega.cfg = true ∧
    ReadsAs demoXmega (dataAddr demoXmega.cfg (demoXmega.ptrGet .z)) 0x55 ∧
    Storable demoXmega.cfg (dataAddr demoXmega.cfg (demoXmega.ptrGet .z)) ∧
    (let s := start .xmegaRmw [(30, 0x01), (31, 0x20)] 0 0 0 [] [];
      ReadStops s (dataAddr s.cfg (s.ptrGet .z)) (.readOfUnspecified 0x2001)) ∧
    (let c := { Cfg.xmegaRmw with platformRegions := [{ first := 0x1000, last := 0x1FFF, writable := false }] };
      let s := start c [(30, 0x00), (31, 0x10)] 0 0 0 [] [];
      ReadsAs s 0x1000 (Config.platformByte 0 0x1000) ∧ ¬ Storable c 0x1000) :=
  ⟨by rfl, reads_of (by decide +kernel), storable_of (by decide +kernel), stops_of (by decide +kernel),
    (State.memRead_ok_iff.1 (by rfl)).1, not_storable_of (by decide +kernel)⟩

theorem test_witness_CallResults : (∃ u, demo.pushPc (demo.pcPlus 1) = .ok u) ∧
    ({ demo with sp := 0x0900 } : State).pushPc 0x0001 = .error (.dataAccessOutOfRange 0x0900) := ⟨⟨_, by rfl⟩,
        by rfl⟩

theorem test_witness_ReturnResults : (∃ u, demo.popPc = .ok (0x3412, u)) ∧
    ({ demo with sp := 0x08FF } : State).popPc = .error (.dataAccessOutOfRange 0x0900) := ⟨⟨_, by rfl⟩, by rfl⟩

/-- The four cases of a skip: one word, two words, a two-word pattern the variant lacks, the end of program memory. -/
theorem test_witness_SkipResults :
    (demo.progWord (demo.pcPlus 1) = .ok 0xFFFF ∧ isTwoWord 0xFFFF = false) ∧
    (isTwoWord 0x940C = true ∧ lacksTwoWord Cfg.ref 0x940C = false ∧ lacksTwoWord Cfg.avrTiny 0x940C = true) ∧
    (let s := start smallFlash [] 0 0x5FFF 0 [] [];
      s.progWord (s.pcPlus 1) = .error (.fetchOutOfRange 0x6000)) :=
  ⟨⟨by rfl, by rfl⟩, ⟨by rfl, by rfl, by rfl⟩, by rfl⟩


end Sys2Proof.Tests
end

