-- ==== Sys2Proof/Proofs/Memory.lean ====
section
/-! PROOFS. Program memory, 20_memory.md R84: every byte address holds a byte, and what `ProgWord` and `ProgByte` give
below `FLASH_WORDS` and from there on. -/

namespace Sys2Proof.Machine

/-- No byte of program memory is without a value: one outside the image reads as erased flash. -/
theorem Memory.isSome_read_program (m : Memory) (a : Nat) : (Memory.read .program m a).isSome := by
  unfold Memory.read
  cases m.lookup a with
  | some b => rfl
  | none => rfl

/-- The byte `ProgWord` and `ProgByte` take at an address is the one program memory holds there. -/
theorem State.read_program_eq_pmByte (s : State) (ba : Nat) :
    Memory.read .program s.pm ba = some (s.pmByte ba) := by
  obtain ⟨b, hb⟩ := Option.isSome_iff_exists.mp (Memory.isSome_read_program s.pm ba)
  simp [State.pmByte, hb]

section
variable {s : State}

theorem State.progWord_of_lt {wa : ProgAddr} (h : wa.toNat < s.cfg.flashWords) :
    s.progWord wa = .ok (s.pmByte (2 * wa.toNat + 1) ++ s.pmByte (2 * wa.toNat)) := if_pos h

theorem State.progWord_of_le {wa : ProgAddr} (h : s.cfg.flashWords ≤ wa.toNat) :
    s.progWord wa = .error (.fetchOutOfRange wa.toNat) := if_neg h.not_gt

theorem State.progByte_of_lt {ba : Nat} (h : ba / 2 < s.cfg.flashWords) : s.progByte ba = .ok (s.pmByte ba) := if_pos h

theorem State.progByte_of_le {ba : Nat} (h : s.cfg.flashWords ≤ ba / 2) :
    s.progByte ba = .error (.fetchOutOfRange (ba / 2)) := if_neg h.not_gt

end

/-- Settles O24: below `FLASH_WORDS` the bytes are those at 2·wa and 2·wa + 1, both of which lie in word wa. -/
theorem programBytes : Obligations.ProgramBytes := by
  intro s wa ba
  refine ⟨fun hwa => ?word, fun hba => ?byte, State.progWord_of_le, State.progByte_of_le⟩
  case word =>
    have hlo : 2 * wa.toNat / 2 < s.cfg.flashWords := by omega
    have hhi : (2 * wa.toNat + 1) / 2 < s.cfg.flashWords := by omega
    exact ⟨s.pmByte (2 * wa.toNat), s.pmByte (2 * wa.toNat + 1), s.read_program_eq_pmByte _, s.read_program_eq_pmByte _,
      State.progWord_of_lt hwa, State.progByte_of_lt hlo, State.progByte_of_lt hhi⟩
  case byte => exact ⟨s.pmByte ba, s.read_program_eq_pmByte ba, State.progByte_of_lt hba⟩

end Sys2Proof.Machine
end

/-! PROOFS. 40_arithmetic.md: the flag functions of R160 in integer arithmetic, and LSL, ROL, TST, CLR and SER (R190 to
R194), the words they stand for and what those instructions leave. -/

namespace Sys2Proof.Machine

/-! ## A byte's top bits, and zero, as statements about its number -/

/-- A bit is the top bit of the digit that ends with it. -/
theorem getLsbD_eq_decide_le {w : Nat} (v : BitVec w) (k : Nat) :
    v.getLsbD k = decide (2 ^ k ≤ v.toNat % (2 ^ k * 2)) := by
  have hlow := Nat.mod_lt v.toNat (Nat.two_pow_pos k)
  rw [BitVec.getLsbD, Nat.testBit_eq_decide_div_mod_eq, Nat.mod_mul, decide_eq_decide]
  rcases Nat.mod_two_eq_zero_or_one (v.toNat / 2 ^ k) with h | h <;> simp [h, hlow]

theorem getLsbD_three (v : Byte) : v.getLsbD 3 = decide (8 ≤ v.toNat % 16) := getLsbD_eq_decide_le v 3

theorem getLsbD_six (v : Byte) : v.getLsbD 6 = decide (64 ≤ v.toNat % 128) := getLsbD_eq_decide_le v 6

theorem getLsbD_seven (v : Byte) : v.getLsbD 7 = decide (128 ≤ v.toNat) := BitVec.msb_eq_decide v

theorem beq_zero_byte (v : Byte) : (v == 0) = decide (v.toNat = 0) :=
  decide_eq_decide.2 (by simp [BitVec.toNat_eq])

/-! ## Carries and borrows -/

section
variable {m x y r : Nat} {c : Bool}

/-- The carry out of a sum of two digits below `2 * m`, from the top bits of the digits and of the result. -/
theorem carry_eq (hx : x < 2 * m) (hy : y < 2 * m) (hr : r < 2 * m)
    (hsum : x + y + c.toNat = r ∨ x + y + c.toNat = r + 2 * m) :
    (decide (m ≤ x) && decide (m ≤ y) || decide (m ≤ y) && !decide (m ≤ r) || !decide (m ≤ r) && decide (m ≤ x)) =
      decide (2 * m ≤ x + y + c.toNat) := by
  have := c.toNat_le
  grind

/-- The borrow out of a difference of two digits below `2 * m`, from the top bits of the digits and of the result. -/
theorem borrow_eq (hx : x < 2 * m) (hy : y < 2 * m) (hr : r < 2 * m)
    (hdiff : x = r + y + c.toNat ∨ x + 2 * m = r + y + c.toNat) :
    (!decide (m ≤ x) && decide (m ≤ y) || decide (m ≤ y) && decide (m ≤ r) || decide (m ≤ r) && !decide (m ≤ x)) =
      decide (x < y + c.toNat) := by
  have := c.toNat_le
  grind

end

section
variable (sr a b : Byte) (c : Bool)

/-! ## `AddFlags8` -/

theorem toNat_add8 : (add8 a b c).toNat = (a.toNat + b.toNat + c.toNat) % 256 := by
  simp [add8, BitVec.toNat_add]

theorem halfCarry_add8 :
    (a.getLsbD 3 && b.getLsbD 3 || b.getLsbD 3 && !(add8 a b c).getLsbD 3 || !(add8 a b c).getLsbD 3 && a.getLsbD 3) =
      decide (15 < a.toNat % 16 + b.toNat % 16 + c.toNat) := by
  have := c.toNat_le
  have := toNat_add8 a b c
  simp only [getLsbD_three]
  exact carry_eq (by omega) (by omega) (by omega) (by omega)

theorem carry_add8 :
    (a.getLsbD 7 && b.getLsbD 7 || b.getLsbD 7 && !(add8 a b c).getLsbD 7 || !(add8 a b c).getLsbD 7 && a.getLsbD 7) =
      decide (255 < a.toNat + b.toNat + c.toNat) := by
  have := c.toNat_le
  have := toNat_add8 a b c
  simp only [getLsbD_seven]
  exact carry_eq (by omega) (by omega) (by omega) (by omega)

/-- A sum overflows when its operands agree in sign and it does not (10_state.md R31). -/
theorem overflow_add8 :
    (a.getLsbD 7 && b.getLsbD 7 && !(add8 a b c).getLsbD 7 || !a.getLsbD 7 && !b.getLsbD 7 && (add8 a b c).getLsbD 7) =
      overflows8 (a.toInt + b.toInt + c.toNat) := by
  have := a.isLt; have := b.isLt; have := c.toNat_le
  simp only [getLsbD_seven, toNat_add8, overflows8, BitVec.toInt_eq_toNat_cond]
  grind

/-! ## `SubFlags8` -/

theorem toNat_sub8 : ((sub8 a b c).toNat : Int) = ((a.toNat : Int) - b.toNat - c.toNat) % 256 := by
  have := a.isLt; have := b.isLt
  cases c <;> simp [sub8, BitVec.toNat_sub] <;> omega

theorem halfBorrow_sub8 :
    (!a.getLsbD 3 && b.getLsbD 3 || b.getLsbD 3 && (sub8 a b c).getLsbD 3 || (sub8 a b c).getLsbD 3 && !a.getLsbD 3) =
      decide (a.toNat % 16 < b.toNat % 16 + c.toNat) := by
  have := c.toNat_le
  have := toNat_sub8 a b c
  simp only [getLsbD_three]
  exact borrow_eq (by omega) (by omega) (by omega) (by omega)

theorem borrow_sub8 :
    (!a.getLsbD 7 && b.getLsbD 7 || b.getLsbD 7 && (sub8 a b c).getLsbD 7 || (sub8 a b c).getLsbD 7 && !a.getLsbD 7) =
      decide (a.toNat < b.toNat + c.toNat) := by
  have := c.toNat_le
  have := toNat_sub8 a b c
  simp only [getLsbD_seven]
  exact borrow_eq (by omega) (by omega) (by omega) (by omega)

/-- A difference overflows when its operands differ in sign and it has the second one's (10_state.md R31). -/
theorem overflow_sub8 :
    (a.getLsbD 7 && !b.getLsbD 7 && !(sub8 a b c).getLsbD 7 || !a.getLsbD 7 && b.getLsbD 7 && (sub8 a b c).getLsbD 7) =
      overflows8 (a.toInt - b.toInt - c.toNat) := by
  have := a.isLt; have := b.isLt; have := c.toNat_le
  have := toNat_sub8 a b c
  simp only [getLsbD_seven, overflows8, BitVec.toInt_eq_toNat_cond]
  grind

/-! ## The status bytes the flag functions build -/

theorem flagsAre_writeHVNZC (h v n z : Bool) :
    FlagsAre (writeHVNZC sr h v n z c) (flagI sr) (flagT sr) h (n ^^ v) v n z c := by
  simp [FlagsAre, writeHVNZC]

theorem sumOf_addFlags8 : SumOf sr (addFlags8 sr a b c) (add8 a b c) a b c := by
  refine ⟨toNat_add8 a b c, ?_⟩
  rw [addFlags8, halfCarry_add8, carry_add8, overflow_add8, beq_zero_byte, getLsbD_seven]
  exact flagsAre_writeHVNZC ..

theorem differenceOf_subFlags8 (keepZ : Bool) :
    DifferenceOf sr (subFlags8 sr a b c keepZ) (sub8 a b c) a b c keepZ := by
  have hZ (z : Bool) : (if keepZ then z && flagZ sr else z) = (z && (!keepZ || flagZ sr)) := by
    cases keepZ <;> simp
  refine ⟨toNat_sub8 a b c, ?_⟩
  rw [subFlags8, halfBorrow_sub8, borrow_sub8, overflow_sub8, hZ, beq_zero_byte, getLsbD_seven]
  exact flagsAre_writeHVNZC ..

theorem flagsAre_logicFlags8 : FlagsAre (logicFlags8 sr a) (flagI sr) (flagT sr) (flagH sr) (bitOf a 7) false
    (bitOf a 7) (decide (a = 0)) (flagC sr) := by
  have h := flagsAre_writeHVNZC sr (flagC sr) (flagH sr) false (bitOf a 7) (a == 0)
  rwa [Bool.xor_false] at h

theorem logicFlagsOf_logicFlags8 : LogicFlagsOf sr (logicFlags8 sr a) a := by
  rw [LogicFlagsOf, ← getLsbD_seven, ← beq_zero_byte]
  exact flagsAre_logicFlags8 sr a

end

/-- Settles O26: the flags are written in their Boolean forms, and each Boolean form is the carry, borrow or overflow of
the integer sum or difference. -/
theorem flagForms : Obligations.FlagForms := by
  intro sr a b c keepZ
  exact ⟨⟨sumOf_addFlags8 sr a b c, flagH_packSreg .., flagC_packSreg .., flagV_packSreg ..⟩,
    ⟨differenceOf_subFlags8 sr a b c keepZ, flagH_packSreg .., flagC_packSreg .., flagV_packSreg ..⟩,
    logicFlagsOf_logicFlags8 sr a⟩

/-! ## Decoding a word by its row (30_encoding.md table R130) -/

/-- Row `n` of the table, counted from 0, decodes its words: the rows before it, which are searched first, differ from it
in a bit that both fix, and so hold none of them. -/
theorem decodeWords_of_row {row : Row} {w : Word} (n : Nat) (hrow : opcodeTable[n]? = some row)
    (hw : inRow row.mask row.value w = true)
    (hapart : ∀ r ∈ rowsTiny ++ opcodeTable.take n, row.value &&& r.mask ≠ r.value &&& row.mask)
    (tiny : Bool) (w2 : Word) : decodeWords tiny w w2 = .ok (row.build w w2) := by
  obtain ⟨hn, hget⟩ := List.getElem?_eq_some_iff.1 hrow
  have htable : opcodeTable = opcodeTable.take n ++ row :: opcodeTable.drop (n + 1) := by
    rw [← hget, List.getElem_cons_drop, List.take_append_drop]
  have hno : ∀ r ∈ rowsTiny ++ opcodeTable.take n, (!inRow r.mask r.value w) = true := fun r hr => by
    simpa [inRow] using Laws.row_apart r.mask r.value hw (hapart r hr)
  have hfind : (rowsOf tiny).find? (fun r => inRow r.mask r.value w) = some row := by
    rw [List.find?_eq_some_iff_append]
    refine ⟨hw, ?_⟩
    cases tiny with
    | false => exact ⟨_, _, htable, fun r hr => hno r (List.mem_append_right _ hr)⟩
    | true => exact ⟨_, _, by rw [rowsOf, if_pos rfl, List.append_assoc, ← htable], hno⟩
  rw [decodeWords, hfind]

theorem inRow_encRdRr (op : BitVec 6) (d r : Reg) : inRow 0xFC00 (op ++ 0#10) (encRdRr op d r) = true := by
  simp only [inRow, Laws.and_beq, List.range, List.range.loop, encRdRr, BitVec.getLsbD_append]
  simp

theorem fieldD_encRdRr (op : BitVec 6) (d r : Reg) : fieldD (encRdRr op d r) = d := by
  ext i hi
  simp only [fieldD, encRdRr, BitVec.getElem_extractLsb', BitVec.getLsbD_append]
  simp [hi, BitVec.getLsbD_eq_getElem]

theorem fieldR_encRdRr (op : BitVec 6) (d r : Reg) : fieldR (encRdRr op d r) = r := by
  refine BitVec.eq_of_getLsbD_eq fun i hi => ?_
  simp only [fieldR, encRdRr, BitVec.getLsbD_append, BitVec.getLsbD_extractLsb']
  by_cases h : i < 4
  · simp [h]
  · obtain rfl : i = 4 := by omega
    simp

/-- Format `F_RD_RR`: the six bits of the row choose the instruction, the ten below them are its two registers. -/
theorem decodeWords_encRdRr {op : BitVec 6} {mk : Reg → Reg → Instr} (n : Nat)
    (hrow : opcodeTable[n]? = some ⟨0xFC00, op ++ 0#10, fun w _ => mk (fieldD w) (fieldR w)⟩)
    (hapart : ∀ r ∈ rowsTiny ++ opcodeTable.take n, (op ++ 0#10) &&& r.mask ≠ r.value &&& 0xFC00)
    (d r : Reg) (tiny : Bool) (w2 : Word) : decodeWords tiny (encRdRr op d r) w2 = .ok (mk d r) := by
  rw [decodeWords_of_row n hrow (inRow_encRdRr op d r) hapart]
  simp only [fieldD_encRdRr, fieldR_encRdRr]

theorem decodeWords_ldi_ff (h : BitVec 4) (tiny : Bool) (w2 : Word) :
    decodeWords tiny (0b11101111#8 ++ h ++ 0b1111#4) w2 = .ok (.ldi (1#1 ++ h) 0xFF) := by
  have hw : inRow 0xF000 0xE000 (0b11101111#8 ++ h ++ 0b1111#4) = true := by revert h; decide
  have hd : fieldD4 (0b11101111#8 ++ h ++ 0b1111#4) = 1#1 ++ h := by revert h; decide
  have hk : fieldK8 (0b11101111#8 ++ h ++ 0b1111#4) = 0xFF := by revert h; decide
  rw [decodeWords_of_row 103 rfl hw (by decide)]
  simp only [hd, hk]

/-! ## ADD, ADC, AND, EOR and LDI as ends of one-word instructions -/

section
variable {s : State} {d r : Reg}

theorem exec_add (h : (Instr.add d r).presentOn s.cfg = true) : exec (.add d r) s =
    .next (s.finish d (add8 (s.reg d) (s.reg r) false) (addFlags8 s.sreg (s.reg d) (s.reg r) false)) :=
  whenPresent_present h

theorem exec_adc (h : (Instr.adc d r).presentOn s.cfg = true) : exec (.adc d r) s =
    .next (s.finish d (add8 (s.reg d) (s.reg r) (flagC s.sreg))
      (addFlags8 s.sreg (s.reg d) (s.reg r) (flagC s.sreg))) :=
  whenPresent_present h

theorem exec_and (h : (Instr.and d r).presentOn s.cfg = true) : exec (.and d r) s =
    .next (s.finish d (s.reg d &&& s.reg r) (logicFlags8 s.sreg (s.reg d &&& s.reg r))) :=
  whenPresent_present h

theorem exec_eor (h : (Instr.eor d r).presentOn s.cfg = true) : exec (.eor d r) s =
    .next (s.finish d (s.reg d ^^^ s.reg r) (logicFlags8 s.sreg (s.reg d ^^^ s.reg r))) :=
  whenPresent_present h

/-- LDI ends as an instruction with a result and flags does, its flags being the old ones. -/
theorem exec_ldi (d : Reg) (k : Byte) (s : State) : exec (.ldi d k) s = .next (s.finish d k s.sreg) :=
  whenPresent_present (i := .ldi d k) (s := s) (body := .ok (s.finish d k s.sreg)) rfl

end

section
variable (s : State) (d : Reg)

theorem State.finish_regResult (v sr : Byte) : RegResult s (s.finish d v sr) d := by
  have hkept : RegsKept s (s.finish d v sr) [d] := fun x hx => by simp_all
  exact ⟨⟨fun _ => ⟨rfl, rfl⟩, rfl⟩, hkept, rfl⟩

theorem State.finish_reg_self (v sr : Byte) : (s.finish d v sr).reg d = v := by simp

/-! ## LSL and ROL -/

/-- Adding a byte to itself moves each bit up by one. -/
theorem getLsbD_seven_add8_self (a : Byte) (c : Bool) : (add8 a a c).getLsbD 7 = a.getLsbD 6 := by
  have := c.toNat_le
  rw [getLsbD_seven, getLsbD_six, toNat_add8, decide_eq_decide]
  omega

theorem flagsAre_addFlags8_self (sr a : Byte) (c : Bool) :
    FlagsAre (addFlags8 sr a a c) (flagI sr) (flagT sr) (bitOf a 3) (bitOf a 6 ^^ (bitOf a 7 ^^ bitOf a 6))
      (bitOf a 7 ^^ bitOf a 6) (bitOf a 6) (decide ((add8 a a c).toNat = 0)) (bitOf a 7) := by
  have hcarry (x y : Bool) : (x && x || x && !y || !y && x) = x := by cases x <;> simp
  have hover : ∀ x y : Bool, (x && x && !y || !x && !x && y) = (x ^^ y) := by decide
  rw [addFlags8, hcarry, hcarry, hover, getLsbD_seven_add8_self, beq_zero_byte]
  exact flagsAre_writeHVNZC ..

/-- The state ADD and ADC of a register with itself leave: the register doubled, with the carry in at the bottom. -/
theorem finish_add8_self (c : Bool) :
    let a := s.reg d
    let t := s.finish d (add8 a a c) (addFlags8 s.sreg a a c)
    RegResult s t d ∧ (t.reg d).toNat = (2 * a.toNat + c.toNat) % 256 ∧
      FlagsAre t.sreg (flagI s.sreg) (flagT s.sreg) (bitOf a 3) (bitOf a 6 ^^ (bitOf a 7 ^^ bitOf a 6))
        (bitOf a 7 ^^ bitOf a 6) (bitOf a 6) (decide ((t.reg d).toNat = 0)) (bitOf a 7) := by
  intro a t
  have hreg : t.reg d = add8 a a c := s.finish_reg_self d _ _
  refine ⟨s.finish_regResult d _ _, ?_, ?_⟩
  · rw [hreg, toNat_add8, two_mul]
  · rw [hreg]; exact flagsAre_addFlags8_self s.sreg a c

end

/-- Settles O36: with both operands the one register, each carry is the bit added to itself. -/
theorem shiftLeftAliases : Obligations.ShiftLeftAliases := by
  intro d tiny w2 s
  refine ⟨decodeWords_encRdRr (mk := .add) 10 rfl (by decide) d d tiny w2,
    decodeWords_encRdRr (mk := .adc) 14 rfl (by decide) d d tiny w2,
    fun h => ⟨_, exec_add h, finish_add8_self s d false⟩, fun h => ⟨_, exec_adc h, ?rol⟩⟩
  case rol =>
    rw [Bool.xor_comm (bitOf _ 6) (bitOf _ 7)]
    exact finish_add8_self s d (flagC s.sreg)

/-- Settles O37: x AND x is x, x EOR x is 0, and LDI writes the flags it found. -/
theorem testClearSetAliases : Obligations.TestClearSetAliases := by
  intro d h tiny w2 s
  refine ⟨decodeWords_encRdRr (mk := .and) 15 rfl (by decide) d d tiny w2,
    decodeWords_encRdRr (mk := .eor) 16 rfl (by decide) d d tiny w2, decodeWords_ldi_ff h tiny w2,
    fun hp => ⟨_, exec_and hp, s.finish_regResult d _ _, ?tstReg, ?tstFlags⟩,
    fun hp => ⟨_, exec_eor hp, s.finish_regResult d _ _, ?clrReg, ?clrFlags⟩,
    ⟨_, exec_ldi _ _ s, s.finish_regResult _ _ _, s.finish_reg_self _ _ _, rfl⟩⟩
  case tstReg => rw [State.finish_reg_self, BitVec.and_self]
  case tstFlags => rw [BitVec.and_self]; exact flagsAre_logicFlags8 s.sreg (s.reg d)
  case clrReg => rw [State.finish_reg_self, BitVec.xor_self]; rfl
  case clrFlags => rw [BitVec.xor_self]; exact flagsAre_logicFlags8 s.sreg 0

end Sys2Proof.Machine

/-! PROOFS. The pointer helpers of 42_transfer.md R265 as numbers: `PtrGet` and the pair it reads, what `PtrSet` writes and
leaves, the sums modulo 2^W, and `DataAddr`. -/

namespace Sys2Proof.Machine

/-! ## Bit fields as numbers -/

/-- The upper of two joined fields counts in units of the lower one's range. -/
theorem toNat_append_eq_mul_add {m n : Nat} (x : BitVec m) (y : BitVec n) :
    (x ++ y).toNat = x.toNat * 2 ^ n + y.toNat := by
  rw [BitVec.toNat_append, ← Nat.shiftLeft_add_eq_or_of_lt y.isLt, Nat.shiftLeft_eq]

theorem toNat_lowBits {w : Nat} (n : Nat) (v : BitVec w) : (lowBits n v).toNat = v.toNat % 2 ^ n := by
  rw [lowBits, BitVec.toNat_ofNat, Nat.mod_eq_of_lt (lt_of_le_of_lt (Nat.mod_le _ _) v.isLt)]

/-- The low 16 bits of an address, which `PtrSet` gives the pair. -/
theorem toNat_low16 (v : DataAddr) : (v.extractLsb' 0 16).toNat = v.toNat % 65536 := by simp

/-- The bits of an address above the low 16, which `PtrSet` gives the RAMP register. -/
theorem toNat_above16 (v : DataAddr) : (v.extractLsb' 16 8).toNat = v.toNat / 65536 := by
  have := v.isLt
  rw [BitVec.extractLsb'_toNat, Nat.shiftRight_eq_div_pow]
  omega

/-! ## `W` -/

/-- A RAMP register is one byte (00_scope.md table R7). -/
theorem Cfg.rampBits_le_of_valid {c : Cfg} (h : c.valid = true) : c.rampBits ≤ 8 := by
  simp only [Cfg.valid, Cfg.dataValid, Bool.and_eq_true, decide_eq_true_eq] at h
  obtain ⟨⟨-, hdata⟩, -⟩ := h
  obtain ⟨⟨⟨⟨⟨-, hramp⟩, -⟩, -⟩, -⟩, -⟩ := hdata
  exact hramp

/-- A pointer's value fits in the 24 bits of an address. -/
theorem Ptr.width_le_of_valid {c : Cfg} (h : c.valid = true) (p : Ptr) : p.width c ≤ 24 := by
  have := Cfg.rampBits_le_of_valid h
  unfold Ptr.width
  split <;> omega

/-! ## `PtrGet` -/

section
variable (s : State)

theorem State.toNat_pair (x : Reg) : (s.pair x).toNat = (s.reg (x + 1)).toNat * 256 + (s.reg x).toNat :=
  toNat_append_eq_mul_add ..

theorem State.toNat_ramp (r : Ramp) :
    (s.ramp r).toNat = if r.present s.cfg then (s.rampRaw r).toNat % 2 ^ s.cfg.rampBits else 0 := by
  unfold State.ramp
  split
  · exact toNat_lowBits ..
  · rfl

theorem State.toNat_ptrGet (p : Ptr) :
    (s.ptrGet p).toNat = (s.ramp p.ramp).toNat * 65536 + (s.pair p.low).toNat :=
  toNat_append_eq_mul_add ..

theorem State.toNat_ptrPlus (h : s.cfg.valid = true) (p : Ptr) (n : DataAddr) :
    (s.ptrPlus p n).toNat = ((s.ptrGet p).toNat + n.toNat) % 2 ^ p.width s.cfg := by
  have hdvd : 2 ^ p.width s.cfg ∣ 2 ^ 24 := Nat.pow_dvd_pow 2 (Ptr.width_le_of_valid h p)
  rw [State.ptrPlus, toNat_lowBits, BitVec.toNat_add, Nat.mod_mod_of_dvd _ hdvd]

/-! ## `PtrSet` -/

variable (p : Ptr) (v : DataAddr)

theorem State.pair_ptrSet : (s.ptrSet p v).pair p.low = v.extractLsb' 0 16 := by
  have hpair := s.pair_setPair p.low (v.extractLsb' 0 16)
  simpa only [State.ptrSet, State.pair, State.setRamp_reg] using hpair

theorem State.reg_ptrSet_of_ne {x : Reg} (hlow : x ≠ p.low) (hhigh : x ≠ p.low + 1) :
    (s.ptrSet p v).reg x = s.reg x := by
  rw [State.ptrSet, State.setRamp_reg, State.reg_setPair, if_neg hhigh, if_neg hlow]

@[simp] theorem State.rampRaw_setPair (x : Reg) (w : BitVec 16) (r : Ramp) : (s.setPair x w).rampRaw r = s.rampRaw r := rfl

theorem State.rampRaw_ptrSet (r : Ramp) : (s.ptrSet p v).rampRaw r =
    if r = p.ramp ∧ p.ramp.present s.cfg = true then lowBits s.cfg.rampBits (v.extractLsb' 16 8) else s.rampRaw r := by
  rw [State.ptrSet, State.setRamp_rampRaw, State.setPair_cfg, State.rampRaw_setPair]

theorem State.toNat_rampRaw_ptrSet (h : p.ramp.present s.cfg = true) :
    ((s.ptrSet p v).rampRaw p.ramp).toNat = v.toNat / 65536 % 2 ^ s.cfg.rampBits := by
  rw [State.rampRaw_ptrSet, if_pos ⟨rfl, h⟩, toNat_lowBits, toNat_above16]

theorem State.rampRaw_ptrSet_of_unwritten {r : Ramp} (h : r = p.ramp → r.present s.cfg = false) :
    (s.ptrSet p v).rampRaw r = s.rampRaw r := by
  rw [State.rampRaw_ptrSet, if_neg]
  rintro ⟨rfl, hpresent⟩
  simp [hpresent] at h

/-- What was set reads back modulo 2^W: the 16 bits of the pair, and above them those the RAMP register holds. -/
theorem State.ptrGet_ptrSet : (s.ptrSet p v).ptrGet p = lowBits (p.width s.cfg) v := by
  refine BitVec.eq_of_toNat_eq ?_
  rw [State.toNat_ptrGet, State.toNat_ramp, State.pair_ptrSet, toNat_low16, State.ptrSet_cfg, toNat_lowBits, Ptr.width]
  split
  case isTrue hpresent =>
    have hwidth : 2 ^ (16 + s.cfg.rampBits) = 65536 * 2 ^ s.cfg.rampBits := Nat.pow_add 2 16 _
    rw [s.toNat_rampRaw_ptrSet p v hpresent, Nat.mod_mod, hwidth, Nat.mod_mul]
    omega
  case isFalse => omega

theorem State.sameMemory_ptrSet : SameMemory s (s.ptrSet p v) := fun _ => by
  simp only [State.pmByte, State.ptrSet_dm, State.ptrSet_pm, and_self]

theorem State.regsKept_ptrSet : RegsKept s (s.ptrSet p v) [p.low, p.low + 1] := fun x hx => by
  obtain ⟨hlow, hhigh⟩ : x ≠ p.low ∧ x ≠ p.low + 1 := by simpa using hx
  exact s.reg_ptrSet_of_ne p v hlow hhigh

end

/-- Settles O23: each helper is read as a number, the RAMP register in units of 65536 above the pair. -/
theorem pointerHelpers : Obligations.PointerHelpers := by
  intro s p n v hvalid
  refine ⟨?get, ?pair, s.toNat_rampRaw_ptrSet p v, ?readsBack, s.regsKept_ptrSet p v, s.sameMemory_ptrSet p v,
    fun _ => s.rampRaw_ptrSet_of_unwritten p v, s.ptrSet_frame p v, s.toNat_ptrPlus hvalid p n, rfl, lowBits_of_lt⟩
  case get =>
    rw [State.toNat_ptrGet, State.toNat_ramp, State.toNat_pair, ite_mul, Nat.zero_mul, Nat.add_assoc]
  case pair => rw [State.pair_ptrSet, toNat_low16]
  case readsBack =>
    intro hlt
    rw [State.ptrGet_ptrSet, lowBits_of_lt hlt]

end Sys2Proof.Machine

/-! PROOFS. What `Cfg.valid` says of the widths of a variant (00_scope.md tables R6, R7, R18), and the machine after
reset (10_state.md section 9). -/

namespace Sys2Proof.Machine

section
variable {c : Cfg}

theorem Cfg.valid_program (h : c.valid = true) :
    1 ≤ c.pcBits ∧ c.pcBits ≤ 22 ∧ c.flashWords ≤ 2 ^ c.pcBits ∧ c.pcStackBytes = (if c.pcBits > 16 then 3 else 2) ∧
      c.eindBits ≤ 8 ∧ c.resetPc < c.flashWords := by
  simp only [Cfg.valid, Cfg.programValid, Bool.and_eq_true, decide_eq_true_eq, beq_iff_eq] at h
  obtain ⟨⟨⟨-, hprogram⟩, -⟩, -⟩ := h
  obtain ⟨⟨⟨⟨⟨⟨⟨⟨⟨hone, hbits⟩, hflash⟩, -⟩, hbytes⟩, -⟩, -⟩, heind⟩, hreset⟩, -⟩ := hprogram
  exact ⟨hone, hbits, hflash, hbytes, heind, hreset⟩

theorem Cfg.pcBits_le (h : c.valid = true) : c.pcBits ≤ 22 := (Cfg.valid_program h).2.1

theorem Cfg.valid_stack (h : c.valid = true) : (c.spBits = 8 ∨ c.spBits = 16) ∧ c.spReset < 2 ^ c.spBits := by
  simp only [Cfg.valid, Cfg.dataValid, Bool.and_eq_true, Bool.or_eq_true, decide_eq_true_eq, beq_iff_eq] at h
  obtain ⟨⟨-, hdata⟩, -⟩ := h
  obtain ⟨⟨⟨⟨⟨⟨⟨⟨hbits, -⟩, -⟩, -⟩, -⟩, -⟩, -⟩, -⟩, hreset⟩ := hdata
  exact ⟨hbits, hreset⟩

theorem Cfg.spBits_le (h : c.valid = true) : c.spBits ≤ 16 := by
  obtain ⟨h | h, -⟩ := Cfg.valid_stack h <;> omega

/-! ## Addresses modulo 2^PC_BITS -/

theorem toNat_truncPc (v : ProgAddr) : (truncPc c v).toNat = v.toNat % 2 ^ c.pcBits := toNat_lowBits ..

/-- A sum taken in 22 bits and then in PC_BITS bits is the sum taken in PC_BITS bits. -/
theorem toNat_truncPc_ofNat (h : c.valid = true) (n : Nat) :
    (truncPc c (BitVec.ofNat 22 n)).toNat = n % 2 ^ c.pcBits := by
  rw [toNat_truncPc, BitVec.toNat_ofNat, Nat.mod_mod_of_dvd _ (Nat.pow_dvd_pow 2 (Cfg.pcBits_le h))]

end

/-- Settles O25: the sum is taken in 22 bits, of which PC_BITS are kept. -/
theorem pcAdvance : Obligations.PcAdvance := by
  intro s n hvalid
  have hsum : s.pc + BitVec.ofNat 22 n = BitVec.ofNat 22 (s.pc.toNat + n) := by simp [BitVec.ofNat_add]
  rw [State.pcPlus, hsum, toNat_truncPc_ofNat hvalid]

/-! ## Reset -/

section
variable {c : Cfg}

theorem State.resetOf_pc (h : c.valid = true) : (State.resetOf c).pc.toNat = c.resetPc := by
  obtain ⟨-, hbits, hflash, -, -, hreset⟩ := Cfg.valid_program h
  have hpow : 2 ^ c.pcBits ≤ 2 ^ 22 := Nat.pow_le_pow_right (by decide) hbits
  exact Nat.mod_eq_of_lt (by omega)

theorem State.resetOf_sp (h : c.valid = true) : (State.resetOf c).sp.toNat = c.spReset := by
  obtain ⟨-, hreset⟩ := Cfg.valid_stack h
  have hpow : 2 ^ c.spBits ≤ 2 ^ 16 := Nat.pow_le_pow_right (by decide) (Cfg.spBits_le h)
  exact Nat.mod_eq_of_lt (by omega)

theorem State.resetOf_ramp (r : Ramp) : (State.resetOf c).ramp r = 0 := by
  have hraw : (State.resetOf c).rampRaw r = 0 := by cases r <;> rfl
  simp [State.ramp, hraw, lowBits]

theorem State.memRead_resetOf {addr : DataAddr} (h : inRam c addr) :
    (State.resetOf c).memRead addr = .error (.readOfUnspecified addr) := by
  have hregion : regionOf (State.resetOf c).cfg addr = .ram := h
  rw [State.memRead_error_iff, ReadStops, hregion]
  exact ⟨rfl, rfl⟩

end

/-- Settles O17: each field read off the state after reset, the pc and SP within their widths. -/
theorem resetValues : Obligations.ResetValues := by
  intro c hvalid
  obtain ⟨-, hreset⟩ := Cfg.valid_stack hvalid
  have hsp : (State.resetOf c).spVal.toNat = c.spReset := by
    rw [State.spVal, lowBits_of_lt (State.resetOf_sp hvalid ▸ hreset), State.resetOf_sp hvalid]
  have hflags : FlagsAre (0x00 : Byte) false false false false false false false false :=
    ⟨rfl, rfl, rfl, rfl, rfl, rfl, rfl, rfl⟩
  have heind : (State.resetOf c).eindVal = 0 := by simp [State.eindVal, State.resetOf, lowBits]
  have hreg : ∀ d, (State.resetOf c).reg d = 0 := fun d => by simp [State.reg, State.resetOf]
  exact ⟨State.resetOf_pc hvalid, hflags, hsp, State.resetOf_ramp, heind, rfl, rfl, rfl, rfl,
    fun _ => State.memRead_resetOf, hreg⟩

end Sys2Proof.Machine

/-! PROOFS. What an instruction can do to the state, said once: every next state is reached by a few kinds of write,
each with the bound it respects. The statements about every instruction and every step (10_state.md sections 2 to 8,
20_memory.md section 8, 60_exceptions.md section 2) are inductions over those writes. -/

namespace Sys2Proof.Machine

/-! ## The writes -/

/-- One write that instruction `i` can make. A new pc lies in PC_BITS bits or comes from the hardware stack; a data byte
goes to SRAM; no event is an interrupt entry; the hold-off starts on XMEGA, by SEI, or by RETI. -/
inductive Effect (i : Instr) : State → State → Prop where
  | reg (s : State) (d : Reg) (v : Byte) : Effect i s (s.setReg d v)
  | sreg (s : State) (v : Byte) : Effect i s (s.setSreg v)
  | pc (s : State) (v : ProgAddr) (h : v.toNat < 2 ^ s.cfg.pcBits) : Effect i s (s.setPc v)
  | sp (s : State) (v : BitVec 16) : Effect i s (s.setSp v)
  | ramp (s : State) (r : Ramp) (v : Byte) : Effect i s (s.setRamp r v)
  | eind (s : State) (v : Byte) : Effect i s (s.setEind v)
  | ram (s : State) (addr : DataAddr) (v : Byte) (h : inRam s.cfg addr) :
      Effect i s (s.setDm (Memory.write .data s.dm addr.toNat v))
  | draw (s : State) : Effect i s { s with draws := s.draws + 1 }
  | emit (s : State) (e : Event) (h : ∀ n, e ≠ .irqTaken n) : Effect i s (s.emit e)
  | sleep (s : State) : Effect i s (s.setSleeping true)
  | holdOff (s : State) (h : s.cfg.isXmega = true ∨ i = .bset 7 ∨ i = .reti) : Effect i s (s.setIrqInhibit true)
  | hwPush (s : State) (v : ProgAddr) (hkind : s.cfg.stackKind = .hardware3) (hlen : s.hwStack.length < 3)
      (h : v = s.pc ∨ v.toNat < 2 ^ s.cfg.pcBits) : Effect i s (s.setHwStack (v :: s.hwStack))
  | hwPop (s : State) (v : ProgAddr) (rest : List ProgAddr) (h : s.hwStack = v :: rest) :
      Effect i s ((s.setHwStack rest).setPc v)

/-- The writes of instruction `i`, one after another. -/
abbrev Effects (i : Instr) : State → State → Prop := Relation.ReflTransGen (Effect i)

section
variable {i : Instr} {s t u : State}

theorem Effect.cfg_eq (h : Effect i s t) : t.cfg = s.cfg := by
  cases h with
  | ramp r v => exact s.setRamp_cfg r v
  | eind v => exact s.setEind_cfg v
  | _ => rfl

theorem Effect.pm_eq (h : Effect i s t) : t.pm = s.pm := by
  cases h with
  | ramp r v => exact s.setRamp_pm r v
  | eind v => exact s.setEind_pm v
  | _ => rfl

/-- The variant and program memory are the same after any writes. -/
theorem Effects.program_eq (h : Effects i s t) : t.cfg = s.cfg ∧ t.pm = s.pm := by
  induction h with
  | refl => exact ⟨rfl, rfl⟩
  | tail _ hstep ih => exact ⟨hstep.cfg_eq.trans ih.1, hstep.pm_eq.trans ih.2⟩

theorem Effects.cfg_eq (h : Effects i s t) : t.cfg = s.cfg := h.program_eq.1

/-! ## The shared operations as writes -/

theorem Effects.setPc (h : Effects i s t) {v : ProgAddr} (hv : v.toNat < 2 ^ s.cfg.pcBits) : Effects i s (t.setPc v) :=
  h.tail (.pc t v (h.cfg_eq ▸ hv))

theorem Effects.advance (h : Effects i s t) (n : Nat) : Effects i s (t.advance n) :=
  h.tail (.pc t _ (truncPc_lt ..))

theorem Effects.setPair (h : Effects i s t) (p : Reg) (v : BitVec 16) : Effects i s (t.setPair p v) :=
  (h.tail (.reg ..)).tail (.reg ..)

theorem Effects.ptrSet (h : Effects i s t) (p : Ptr) (v : DataAddr) : Effects i s (t.ptrSet p v) :=
  (h.setPair ..).tail (.ramp ..)

theorem Effects.platformWrite (h : Effects i s t) (addr : DataAddr) (v : Byte) : Effects i s (t.platformWrite addr v) :=
  h.tail (.emit _ _ (by simp))

theorem Effects.cpuWrite (h : Effects i s t) (r : CpuReg) (v : Byte) : Effects i s (t.cpuWrite r v) := by
  cases r with
  | sreg => exact h.tail (.sreg ..)
  | sph => exact h.tail (.sp ..)
  | spl =>
    have hsp := h.tail (.sp t (highByte t.spVal ++ v))
    unfold State.cpuWrite
    dsimp only
    split
    case isTrue hx => exact hsp.tail (.holdOff _ (.inl hx))
    case isFalse => exact hsp
  | eind => exact h.tail (.eind ..)
  | ramp r => exact h.tail (.ramp ..)

theorem Effects.ioWrite (h : Effects i s t) (a : BitVec 6) (v : Byte) : Effects i s (t.ioWrite a v) := by
  unfold State.ioWrite
  split
  case h_1 => exact h.cpuWrite ..
  case h_2 => exact h.platformWrite ..

theorem Effects.ioRead (h : Effects i s t) (a : BitVec 6) : Effects i s (t.ioRead a).2 := by
  unfold State.ioRead
  split
  case h_1 => exact h
  case h_2 => exact h.tail (.draw t)

theorem Effects.memRead (h : Effects i s t) {addr : DataAddr} {v : Byte} (hu : t.memRead addr = .ok (v, u)) :
    Effects i s u := by
  obtain ⟨-, rfl⟩ := State.memRead_ok_iff.1 hu
  unfold drawsAfterRead
  split
  case isTrue => exact h.tail (.draw t)
  case isFalse => exact h

theorem Effects.memWrite (h : Effects i s t) {addr : DataAddr} {v : Byte} (hu : t.memWrite addr v = .ok u) :
    Effects i s u := by
  unfold State.memWrite at hu
  split at hu
  case h_1 => cases hu; exact h.tail (.reg ..)
  case h_2 => cases hu; exact h.ioWrite ..
  case h_3 => cases hu; exact h.platformWrite ..
  case h_4 hram => cases hu; exact h.tail (.ram t addr v hram)
  case h_5 =>
    split at hu
    case isTrue => cases hu; exact h.platformWrite ..
    case isFalse => cases hu

theorem Effects.push8 (h : Effects i s t) {v : Byte} (hu : t.push8 v = .ok u) : Effects i s u := by
  obtain ⟨w, hw, rfl⟩ := Res.map_ok hu
  exact (h.memWrite hw).tail (.sp ..)

theorem Effects.pop8 (h : Effects i s t) {v : Byte} (hu : t.pop8 = .ok (v, u)) : Effects i s u :=
  Effects.memRead (h.tail (.sp t _)) hu

/-- A pushed address is the pc, or lies in PC_BITS bits. -/
theorem Effects.pushPc {v : ProgAddr} (hv : v = s.pc ∨ v.toNat < 2 ^ s.cfg.pcBits) (hu : s.pushPc v = .ok u) :
    Effects i s u := by
  cases hkind : s.cfg.stackKind with
  | hardware3 =>
    rw [State.pushPc_hardware v hkind] at hu
    split at hu
    case isTrue => cases hu
    case isFalse hlen => cases hu; exact .single (.hwPush s v hkind (not_le.1 hlen) hv)
  | dataSpace =>
    obtain ⟨a, b, ha, hb, hu⟩ := State.pushPc_data hkind hu
    have hpushed : Effects i s b := (Effects.push8 .refl ha).push8 hb
    split at hu
    case isTrue => exact hpushed.push8 hu
    case isFalse => cases hu; exact hpushed

/-- A computation in two parts answers with a value only where both do. -/
theorem Res.bind_ok {α β : Type} {r : Res α} {f : α → Res β} {b : β} (h : r >>= f = .ok b) :
    ∃ a, r = .ok a ∧ f a = .ok b := by
  cases r with
  | ok a => exact ⟨a, rfl, h⟩
  | error e => cases h

/-- The top byte of an address popped from the data stack: 0 where two bytes hold the pc. -/
def State.popTop (s : State) : Res (Byte × State) := if s.cfg.pcStackBytes = 3 then s.pop8 else .ok (0x00, s)

/-- `PopPC` on the data stack: high byte first. -/
theorem State.popPc_data (s : State) (h : s.cfg.stackKind = .dataSpace) :
    s.popPc = s.popTop >>= fun x => x.2.pop8 >>= fun y => y.2.pop8 >>= fun z =>
      .ok (truncPc z.2.cfg ((x.1 ++ y.1 ++ z.1).setWidth 22), z.2) := by
  rw [State.popPc, h, State.popTop]
  by_cases h3 : s.cfg.pcStackBytes = 3
  · simp only [if_pos h3]; rfl
  · simp only [if_neg h3]; rfl

theorem Effects.popTop {b : Byte} (hu : s.popTop = .ok (b, u)) : Effects i s u := by
  unfold State.popTop at hu
  split at hu
  case isTrue => exact Effects.pop8 .refl hu
  case isFalse => cases hu; exact .refl

/-- The address a pop gives can be the next pc. -/
theorem Effects.popPc {v : ProgAddr} (hu : s.popPc = .ok (v, u)) : Effects i s (u.setPc v) := by
  cases hkind : s.cfg.stackKind with
  | hardware3 =>
    simp only [State.popPc, hkind] at hu
    split at hu
    case h_1 x rest hstack => cases hu; exact .single (.hwPop s v rest hstack)
    case h_2 => cases hu
  | dataSpace =>
    rw [State.popPc_data s hkind] at hu
    obtain ⟨x, hx, hu⟩ := Res.bind_ok hu
    obtain ⟨y, hy, hu⟩ := Res.bind_ok hu
    obtain ⟨z, hz, hu⟩ := Res.bind_ok hu
    cases hu
    exact (((Effects.popTop hx).pop8 hy).pop8 hz).tail (.pc _ _ (truncPc_lt ..))

/-! ## The bodies of the meanings as writes -/

theorem Effects.finish (h : Effects i s t) (d : Reg) (v sr : Byte) : Effects i s (t.finish d v sr) :=
  Effects.advance ((h.tail (.reg ..)).tail (.sreg ..)) 1

theorem Effects.finishFlags (h : Effects i s t) (sr : Byte) : Effects i s (t.finishFlags sr) :=
  Effects.advance (h.tail (.sreg ..)) 1

theorem Effects.finishPair (h : Effects i s t) (p : Reg) (v : BitVec 16) (sr : Byte) :
    Effects i s (t.finishPair p v sr) :=
  Effects.advance ((h.setPair p v).tail (.sreg ..)) 1

theorem Effects.loadFrom {d : Reg} {ea : DataAddr} (hu : s.loadFrom d ea = .ok u) : Effects i s u := by
  obtain ⟨⟨v, w⟩, hw, rfl⟩ := Res.map_ok hu
  exact (Effects.memRead .refl hw).tail (.reg ..)

theorem Effects.loadInc {d : Reg} {p : Ptr} (hu : s.loadInc d p = .ok u) : Effects i s u := by
  obtain ⟨⟨v, w⟩, hw, rfl⟩ := Res.map_ok hu
  exact (Effects.ptrSet (Effects.memRead .refl hw) ..).tail (.reg ..)

theorem Effects.loadDec {d : Reg} {p : Ptr} (hu : s.loadDec d p = .ok u) : Effects i s u := by
  obtain ⟨⟨v, w⟩, hw, rfl⟩ := Res.map_ok hu
  exact (Effects.ptrSet (Effects.memRead .refl hw) ..).tail (.reg ..)

theorem Effects.storeInc {d : Reg} {p : Ptr} (hu : s.storeInc d p = .ok u) : Effects i s u := by
  obtain ⟨w, hw, rfl⟩ := Res.map_ok hu
  exact (Effects.memWrite .refl hw).ptrSet ..

theorem Effects.storeDec {d : Reg} {p : Ptr} (hu : s.storeDec d p = .ok u) : Effects i s u :=
  Effects.memWrite (Effects.ptrSet .refl ..) hu

theorem Effects.exchange {d : Reg} {f : Byte → Byte → Byte} (hu : s.exchange d f = .ok u) : Effects i s u := by
  obtain ⟨⟨old, w⟩, hw, hu⟩ := Res.bind_ok hu
  obtain ⟨x, hx, hu⟩ := Res.bind_ok hu
  cases hu
  exact ((Effects.memRead .refl hw).memWrite hx).tail (.reg ..)

theorem Effects.callTo {n : Nat} {target : ProgAddr} (ht : target.toNat < 2 ^ s.cfg.pcBits)
    (hu : s.callTo n target = .ok u) : Effects i s u := by
  obtain ⟨w, hw, rfl⟩ := Res.map_ok hu
  exact (Effects.pushPc (.inr (truncPc_lt ..)) hw).setPc ht

theorem Effects.returnFromInterrupt (hu : s.returnFromInterrupt = .ok u) : Effects .reti s u := by
  obtain ⟨⟨v, w⟩, hw, rfl⟩ := Res.map_ok hu
  have hpc : Effects .reti s (w.setPc v) := .popPc hw
  dsimp only
  split
  case isTrue => exact (hpc.tail (.emit _ .handlerEnded (by simp))).tail (.holdOff _ (.inr (.inr rfl)))
  case isFalse => exact (hpc.tail (.sreg ..)).tail (.holdOff _ (.inr (.inr rfl)))

/-- A skip only moves the pc. -/
theorem Effects.skipIf (h : Effects i s t) {cond : Bool} (hu : t.skipIf cond = .ok u) : Effects i s u := by
  unfold State.skipIf at hu
  split at hu
  case h_1 v hv =>
    cases hu
    refine h.tail (.pc _ _ ?_)
    split
    case isTrue =>
      unfold State.skipTarget at hv
      split at hv
      case h_1 => cases hv
      case h_2 =>
        split at hv
        case isTrue => cases hv
        case isFalse => cases hv; exact truncPc_lt ..
    case isFalse => exact truncPc_lt ..
  case h_2 =>
    split at hu
    case isTrue => cases hu
    case isFalse => cases hu; exact h.advance 1

theorem Effects.branchIf (h : Effects i s t) (cond : Bool) (k : BitVec 7) : Effects i s (t.branchIf cond k) := by
  refine h.tail (.pc _ _ ?_)
  split <;> exact truncPc_lt ..

/-! ## Every instruction -/

/-- A next state is one that the instruction's body gives. -/
theorem Effects.of_res {r : Res State} (h : whenPresent i s r = .next t) (hr : ∀ a, r = .ok a → Effects i s a) :
    Effects i s t :=
  hr t (whenPresent_next h).2

theorem Effects.of_ok (h : whenPresent i s (.ok u) = .next t) (hu : Effects i s u) : Effects i s t :=
  .of_res h fun _ ha => Except.ok.inj ha ▸ hu

theorem Effects.of_map {α : Type} {r : Res α} {f : α → State} (h : whenPresent i s (r.map f) = .next t)
    (hf : ∀ a, r = .ok a → Effects i s (f a)) : Effects i s t := by
  refine .of_res h fun _ hbody => ?_
  obtain ⟨a, ha, rfl⟩ := Res.map_ok hbody
  exact hf a ha

/-- As `Effects.of_map`, for an instruction that names a half of its pointer in vain (42_transfer.md R275). -/
theorem Effects.of_unlessPointerHalf {α : Type} {r : Res α} {f : α → State} {j : Instr} {p : Ptr} {d : Reg}
    (h : whenPresent i s (unlessPointerHalf j p d (r.map f)) = .next t) (hf : ∀ a, r = .ok a → Effects i s (f a)) :
    Effects i s t := by
  refine .of_res h fun _ hbody => ?_
  unfold unlessPointerHalf at hbody
  split at hbody
  case isTrue => cases hbody
  case isFalse =>
    obtain ⟨a, ha, rfl⟩ := Res.map_ok hbody
    exact hf a ha

theorem whenPresentRefuse_ne_next {r : Refusal} : whenPresentRefuse i s r ≠ .next t := by
  unfold whenPresentRefuse
  split <;> simp

/-- Every next state of an instruction is reached by writes of `Effect`. -/
theorem exec_effects (h : exec i s = .next t) : Effects i s t := by
  cases i with
  | unlisted0000 | unlistedLd0011 | unlistedLd1000 | unlistedLd1011 | unlistedSt0011 | unlistedSt1000 | unlistedSt1011
  | reserved9404 | reserved9528 | reserved9548 | reserved95b8 | unlisted94x9 | unlisted95xB | reservedF808 => cases h
  | des | break_ | spm | spmZinc => exact absurd h whenPresentRefuse_ne_next
  | add | adc | sub | sbc | subi | sbci | and | or | eor | andi | ori | com | neg | inc | dec | lsr | ror | asr =>
    exact .of_ok h (.finish .refl ..)
  | cp | cpc | cpi => exact .of_ok h (.finishFlags .refl ..)
  | mul | muls | mulsu | fmul | fmuls | fmulsu | adiw | sbiw => exact .of_ok h (.finishPair .refl ..)
  | mov | ldi | swap | bld => exact .of_ok h (.advance (.single (.reg ..)) 1)
  | movw => exact .of_ok h (.advance (.setPair .refl ..) 1)
  | bclr | bst => exact .of_ok h (.advance (.single (.sreg ..)) 1)
  | bset b =>
    refine .of_ok h (.advance ?_ 1)
    split
    case isTrue hb => exact .tail (.single (.sreg ..)) (.holdOff _ (.inr (.inl (congrArg Instr.bset hb))))
    case isFalse => exact .single (.sreg ..)
  | nop => exact .of_ok h (.advance .refl 1)
  | sleep =>
    refine .of_ok h (.advance ?_ 1)
    split
    case isTrue => exact .single (.sleep s)
    case isFalse => exact .refl
  | wdr => exact .of_ok h (.advance (.single (.emit _ _ (by simp))) 1)
  | sbi | cbi => exact .of_ok h (.advance (.ioWrite (Effects.ioRead .refl _) ..) 1)
  | in_ => exact .of_ok h (.advance (.tail (Effects.ioRead .refl _) (.reg ..)) 1)
  | out => exact .of_ok h (.advance (.ioWrite .refl ..) 1)
  | cpse | sbrc | sbrs => exact .of_res h fun _ => .skipIf .refl
  | sbic | sbis => exact .of_res h fun _ => .skipIf (.ioRead .refl _)
  | brbs | brbc => exact .of_ok h (.branchIf .refl ..)
  | rjmp | ijmp | eijmp | jmp => exact .of_ok h (.setPc .refl (truncPc_lt ..))
  | rcall | icall | eicall | call => exact .of_res h fun _ => .callTo (truncPc_lt ..)
  | ret => exact .of_map h fun _ => .popPc
  | reti => exact .of_res h fun _ => .returnFromInterrupt
  | lds | ldsTiny | lddZ | lddY | ldX => exact .of_map h fun _ hu => .advance (.loadFrom hu) _
  | sts | stsTiny | stdZ | stdY | stX => exact .of_map h fun _ hu => .advance (.memWrite .refl hu) _
  | ldXinc | ldYinc | ldZinc => exact .of_unlessPointerHalf h fun _ hu => .advance (.loadInc hu) 1
  | ldXdec | ldYdec | ldZdec => exact .of_unlessPointerHalf h fun _ hu => .advance (.loadDec hu) 1
  | stXinc | stYinc | stZinc => exact .of_unlessPointerHalf h fun _ hu => .advance (.storeInc hu) 1
  | stXdec | stYdec | stZdec => exact .of_unlessPointerHalf h fun _ hu => .advance (.storeDec hu) 1
  | lpm | lpmRdZ | elpm | elpmRdZ => exact .of_map h fun _ _ => .advance (.single (.reg ..)) 1
  | lpmRdZinc => exact .of_unlessPointerHalf h fun _ _ => .advance (.tail (Effects.setPair .refl ..) (.reg ..)) 1
  | elpmRdZinc => exact .of_unlessPointerHalf h fun _ _ => .advance (.tail (Effects.ptrSet .refl ..) (.reg ..)) 1
  | push => exact .of_map h fun _ hu => .advance (.push8 .refl hu) 1
  | pop => exact .of_map h fun _ hu => .advance (.tail (Effects.pop8 .refl hu) (.reg ..)) 1
  | xch | las | lac | lat => exact .of_map h fun _ hu => .advance (.exchange hu) 1

/-! ## Every step -/

@[simp] theorem State.boundary_cfg (s : State) : s.boundary.1.cfg = s.cfg := by rw [s.boundary_eq]
@[simp] theorem State.boundary_sreg (s : State) : s.boundary.1.sreg = s.sreg := by rw [s.boundary_eq]
@[simp] theorem State.boundary_pc (s : State) : s.boundary.1.pc = s.pc := by rw [s.boundary_eq]
@[simp] theorem State.boundary_pm (s : State) : s.boundary.1.pm = s.pm := by rw [s.boundary_eq]
@[simp] theorem State.boundary_trace (s : State) : s.boundary.1.trace = s.trace := by rw [s.boundary_eq]
@[simp] theorem State.boundary_sleeping (s : State) : s.boundary.1.sleeping = s.sleeping := by rw [s.boundary_eq]
@[simp] theorem State.boundary_irqInhibit (s : State) : s.boundary.1.irqInhibit = s.irqInhibit := by rw [s.boundary_eq]

theorem runInstruction_next (h : runInstruction s = .next t) : ∃ i, exec i (s.setIrqInhibit false) = .next t := by
  unfold runInstruction at h
  split at h
  case h_1 i _ => exact ⟨i, h⟩
  case h_2 => cases h

/-- Everything a step can do (30_encoding.md R150): hold, run an instruction, awake, or take an interrupt. -/
theorem step_next (h : step s = .next t) :
    t = s.boundary.1 ∨
    (∃ i u, (u = s.boundary.1 ∨ u = s.boundary.1.setSleeping false) ∧ exec i (u.setIrqInhibit false) = .next t) ∨
    (∃ n, interruptFor s.boundary.1 s.boundary.2 = some n ∧ s.irqInhibit = false ∧
      s.boundary.1.takeInterrupt n = .ok t) := by
  unfold step at h
  dsimp only at h
  split at h
  case h_1 =>
    split at h
    case isTrue => cases h; exact .inl rfl
    case isFalse =>
      obtain ⟨i, hi⟩ := runInstruction_next h
      exact .inr (.inl ⟨i, _, .inl rfl, hi⟩)
  case h_2 n hn =>
    split at h
    case isTrue =>
      obtain ⟨i, hi⟩ := runInstruction_next h
      exact .inr (.inl ⟨i, _, .inr rfl, hi⟩)
    case isFalse hinhibit =>
      refine .inr (.inr ⟨n, hn, by simpa using hinhibit, ?_⟩)
      cases htake : s.boundary.1.takeInterrupt n with
      | ok u => rw [htake] at h; cases h; rfl
      | error f => rw [htake] at h; cases h

/-- What interrupt entry leaves but for the push: the vector, the event, the program and the variant. -/
theorem State.takeInterrupt_next {n : Nat} (h : s.takeInterrupt n = .ok t) :
    t.cfg = s.cfg ∧ t.pm = s.pm ∧ t.pc = vectorAddr s.cfg n ∧ t.trace.head? = some (.irqTaken n) := by
  obtain ⟨u, hu, rfl⟩ := State.takeInterrupt_ok h
  obtain ⟨hcfg, hpm⟩ := (Effects.pushPc (i := .nop) (.inl rfl) hu).program_eq
  split <;> exact ⟨hcfg, hpm, congrArg (vectorAddr · n) hcfg, rfl⟩

/-- Settles O16: a hold, an entry, and each write of an instruction leave program memory and the variant. -/
theorem stepKeepsProgram : Obligations.StepKeepsProgram := by
  intro s t h
  obtain rfl | ⟨i, u, hu, hi⟩ | ⟨n, -, -, htake⟩ := step_next h
  · simp
  · have heq := (exec_effects hi).program_eq
    obtain rfl | rfl := hu <;> simpa using heq
  · obtain ⟨hcfg, hpm, -⟩ := State.takeInterrupt_next htake
    simpa using And.intro hcfg hpm

/-! ## The hold-off -/

theorem Effect.irqInhibit_eq (h : Effect i s t) (hx : s.cfg.isXmega = false) (hi : ¬ (i = .bset 7 ∨ i = .reti)) :
    t.irqInhibit = s.irqInhibit := by
  cases h with
  | ramp r v => exact s.setRamp_irqInhibit r v
  | eind v => exact s.setEind_irqInhibit v
  | holdOff h =>
    rcases h with h | h
    · simp [hx] at h
    · exact absurd h hi
  | _ => rfl

theorem Effects.irqInhibit_eq (h : Effects i s t) (hx : s.cfg.isXmega = false) (hi : ¬ (i = .bset 7 ∨ i = .reti)) :
    t.irqInhibit = s.irqInhibit := by
  induction h with
  | refl => rfl
  | tail hs hstep ih => exact (hstep.irqInhibit_eq (Effects.cfg_eq hs ▸ hx) hi).trans ih

/-- Settles O12: of the writes, only the one that XMEGA, SEI and RETI make turns the hold-off on. -/
theorem holdOffSources : Obligations.HoldOffSources := by
  intro i s t hx h hoff hon
  by_contra hi
  have heq := (exec_effects h).irqInhibit_eq hx hi
  rw [hoff, hon] at heq
  cases heq

/-! ## Events -/

theorem Effect.trace_eq (h : Effect i s t) :
    ∃ es : List Event, t.trace = es ++ s.trace ∧ ∀ n, Event.irqTaken n ∉ es := by
  cases h with
  | ramp r v => exact ⟨[], s.setRamp_trace r v, by simp⟩
  | eind v => exact ⟨[], s.setEind_trace v, by simp⟩
  | emit e he => exact ⟨[e], rfl, fun n => by simpa using (he n).symm⟩
  | _ => exact ⟨[], rfl, by simp⟩

/-- The writes of an instruction add events before the ones there were, and no interrupt entry. -/
theorem Effects.trace_eq (h : Effects i s t) :
    ∃ es : List Event, t.trace = es ++ s.trace ∧ ∀ n, Event.irqTaken n ∉ es := by
  induction h with
  | refl => exact ⟨[], rfl, by simp⟩
  | tail _ hstep ih =>
    obtain ⟨es, hes, hno⟩ := ih
    obtain ⟨fs, hfs, hno'⟩ := hstep.trace_eq
    exact ⟨fs ++ es, by rw [hfs, hes, List.append_assoc], fun n => by simp [hno n, hno' n]⟩

theorem exec_head_ne_irqTaken {n : Nat} (h : exec i s = .next t) (hlen : s.trace.length < t.trace.length) :
    t.trace.head? ≠ some (.irqTaken n) := by
  obtain ⟨es, hes, hno⟩ := (exec_effects h).trace_eq
  cases es with
  | nil => simp [hes] at hlen
  | cons e es =>
    rintro hhead
    rw [hes] at hhead
    cases hhead
    exact hno n (List.mem_cons_self ..)

theorem interruptFor_eq_some {presented : List Nat} {n : Nat} (h : interruptFor s presented = some n) :
    flagI s.sreg = true ∧ presented.min? = some n := by
  unfold interruptFor at h
  split at h
  case isTrue hI => exact ⟨hI, h⟩
  case isFalse => cases h

/-- Settles O10: a hold adds no event and an instruction no `IrqTaken`, so the step was the entry. -/
theorem interruptsOnlyAtBoundaries : Obligations.InterruptsOnlyAtBoundaries := by
  refine ⟨fun s t n h hlen hhead => ?step, fun i s t n h hlen => exec_head_ne_irqTaken h hlen⟩
  obtain rfl | ⟨i, u, hu, hi⟩ | ⟨m, hm, hoff, htake⟩ := step_next h
  · simp at hlen
  · refine absurd hhead (exec_head_ne_irqTaken hi ?_)
    obtain rfl | rfl := hu <;> simpa using hlen
  · obtain ⟨-, -, hpc, hhead'⟩ := State.takeInterrupt_next htake
    obtain rfl : n = m := by rw [hhead] at hhead'; cases hhead'; rfl
    obtain ⟨hI, hmin⟩ := interruptFor_eq_some hm
    exact ⟨by simpa using hI, hoff, List.min?_mem hmin, by simpa using hpc⟩

/-! ## The invariant -/

/-- `State.Inv`, field by field. -/
structure State.Good (s : State) : Prop where
  valid : s.cfg.valid = true
  pc : s.pc.toNat < 2 ^ s.cfg.pcBits
  sp : s.sp.toNat < 2 ^ s.cfg.spBits
  hwLength : s.hwStack.length ≤ 3
  hwEntries : ∀ v ∈ s.hwStack, v.toNat < 2 ^ s.cfg.pcBits
  hwKind : s.cfg.stackKind = .hardware3 ∨ s.hwStack = []
  rampd : maskedReg s.cfg.hasRampd s.cfg.rampBits s.rampd = true
  rampx : maskedReg s.cfg.hasRampx s.cfg.rampBits s.rampx = true
  rampy : maskedReg s.cfg.hasRampy s.cfg.rampBits s.rampy = true
  rampz : maskedReg s.cfg.hasRampz s.cfg.rampBits s.rampz = true
  eind : maskedReg s.cfg.hasEind s.cfg.eindBits s.eind = true
  dmWf : Memory.wf .data s.dm = true
  dmRange : ∀ c ∈ s.dm, s.cfg.ramStart ≤ c.1 ∧ c.1 ≤ s.cfg.ramEnd
  pmWf : Memory.wf .program s.pm = true
  pmRange : ∀ c ∈ s.pm, c.1 < 2 * s.cfg.flashWords
  pending : ∀ n ∈ s.pending, isSource s.cfg n = true

theorem State.inv_iff_good : s.Inv = true ↔ s.Good := by
  simp only [State.Inv, Bool.and_eq_true, Bool.or_eq_true, decide_eq_true_eq, List.all_eq_true, beq_iff_eq,
    List.isEmpty_iff]
  constructor
  · rintro ⟨⟨⟨⟨⟨⟨⟨⟨⟨⟨⟨⟨⟨⟨⟨h1, h2⟩, h3⟩, h4⟩, h5⟩, h6⟩, h7⟩, h8⟩, h9⟩, h10⟩, h11⟩, h12⟩, h13⟩, h14⟩, h15⟩, h16⟩
    exact ⟨h1, h2, h3, h4, h5, h6, h7, h8, h9, h10, h11, h12, h13, h14, h15, h16⟩
  · rintro ⟨h1, h2, h3, h4, h5, h6, h7, h8, h9, h10, h11, h12, h13, h14, h15, h16⟩
    exact ⟨⟨⟨⟨⟨⟨⟨⟨⟨⟨⟨⟨⟨⟨⟨h1, h2⟩, h3⟩, h4⟩, h5⟩, h6⟩, h7⟩, h8⟩, h9⟩, h10⟩, h11⟩, h12⟩, h13⟩, h14⟩, h15⟩, h16⟩

/-- The low bits of what is written to a register that exists fit in it. -/
theorem maskedReg_lowBits {present : Bool} (h : present = true) (n : Nat) (v : Byte) :
    maskedReg present n (lowBits n v) = true := by
  simpa [maskedReg, h] using lowBits_toNat_lt v

theorem inRam_bounds {c : Cfg} {addr : DataAddr} (h : inRam c addr) :
    c.ramStart ≤ addr.toNat ∧ addr.toNat ≤ c.ramEnd := by
  simp only [inRam, regionOf] at h
  split at h
  case isTrue => cases h
  case isFalse =>
    split at h
    case isTrue => cases h
    case isFalse =>
      split at h
      case isTrue => cases h
      case isFalse =>
        split at h
        case isTrue hram => simpa using hram
        case isFalse => cases h

namespace State.Good
variable (h : s.Good)
include h

theorem setPc {v : ProgAddr} (hv : v.toNat < 2 ^ s.cfg.pcBits) : (s.setPc v).Good := { h with pc := hv }

theorem setRamp (r : Ramp) (v : Byte) : (s.setRamp r v).Good := by
  unfold State.setRamp
  split
  case isTrue hpresent =>
    have hfits := maskedReg_lowBits hpresent s.cfg.rampBits v
    cases r with
    | d => exact { h with rampd := hfits }
    | x => exact { h with rampx := hfits }
    | y => exact { h with rampy := hfits }
    | z => exact { h with rampz := hfits }
  case isFalse => exact h

theorem setEind (v : Byte) : (s.setEind v).Good := by
  unfold State.setEind
  split
  case isTrue hpresent => exact { h with eind := maskedReg_lowBits hpresent s.cfg.eindBits v }
  case isFalse => exact h

theorem writeRam {addr : DataAddr} (v : Byte) (hram : inRam s.cfg addr) :
    (s.setDm (Memory.write .data s.dm addr.toNat v)).Good := by
  have hrange : ∀ c ∈ Memory.write .data s.dm addr.toNat v, s.cfg.ramStart ≤ c.1 ∧ c.1 ≤ s.cfg.ramEnd := fun c hc => by
    obtain rfl | hc := Memory.mem_write hc
    · exact inRam_bounds hram
    · exact h.dmRange c hc
  exact { h with dmWf := Memory.write_wf .data s.dm _ v h.dmWf, dmRange := hrange }

theorem hwPush {v : ProgAddr} (hkind : s.cfg.stackKind = .hardware3) (hlen : s.hwStack.length < 3)
    (hv : v = s.pc ∨ v.toNat < 2 ^ s.cfg.pcBits) : (s.setHwStack (v :: s.hwStack)).Good := by
  have hfits : v.toNat < 2 ^ s.cfg.pcBits := hv.elim (fun heq => heq ▸ h.pc) id
  exact { h with hwLength := hlen, hwEntries := List.forall_mem_cons.2 ⟨hfits, h.hwEntries⟩, hwKind := .inl hkind }

theorem hwPop {v : ProgAddr} {rest : List ProgAddr} (hstack : s.hwStack = v :: rest) :
    ((s.setHwStack rest).setPc v).Good := by
  have hlen : rest.length + 1 ≤ 3 := by simpa [hstack] using h.hwLength
  have hentries : ∀ x ∈ v :: rest, x.toNat < 2 ^ s.cfg.pcBits := hstack ▸ h.hwEntries
  obtain ⟨hv, hrest⟩ := List.forall_mem_cons.1 hentries
  have hkind : s.cfg.stackKind = .hardware3 := h.hwKind.resolve_right (by simp [hstack])
  exact { h with pc := hv, hwLength := Nat.le_of_succ_le hlen, hwEntries := hrest, hwKind := .inl hkind }

theorem effect (ht : Effect i s t) : t.Good := by
  cases ht with
  | reg | sreg | draw | emit | sleep | holdOff => exact { h with }
  | pc v hv => exact h.setPc hv
  | sp v => exact { h with sp := lowBits_toNat_lt v }
  | ramp r v => exact h.setRamp r v
  | eind v => exact h.setEind v
  | ram addr v hram => exact h.writeRam v hram
  | hwPush v hkind hlen hv => exact h.hwPush hkind hlen hv
  | hwPop v rest hstack => exact h.hwPop hstack

theorem effects (ht : Effects i s t) : t.Good := by
  induction ht with
  | refl => exact h
  | tail _ hstep ih => exact ih.effect hstep

theorem boundary : s.boundary.1.Good := by
  unfold State.boundary
  split
  case h_1 => exact h
  case h_2 => exact { h with pending := fun n hn => (List.mem_filter.1 hn).2 }

theorem setSleeping (b : Bool) : (s.setSleeping b).Good := { h with }

theorem setIrqInhibit (b : Bool) : (s.setIrqInhibit b).Good := { h with }

theorem takeInterrupt {n : Nat} (ht : s.takeInterrupt n = .ok t) : t.Good := by
  obtain ⟨u, hu, rfl⟩ := State.takeInterrupt_ok ht
  have hpushed : u.Good := (h.setSleeping false).effects (Effects.pushPc (i := .nop) (.inl rfl) hu)
  split
  case isTrue => exact { hpushed.setPc (truncPc_lt ..) with }
  case isFalse => exact { hpushed.setPc (truncPc_lt ..) with }

end State.Good

/-- Settles O14: the pc and SP are in their widths, every other field is zero or empty. -/
theorem resetInvariant : Obligations.ResetInvariant := by
  intro c hvalid
  rw [State.inv_iff_good]
  obtain ⟨-, -, hflash, -, -, hreset⟩ := Cfg.valid_program hvalid
  have hpc : (State.resetOf c).pc.toNat < 2 ^ c.pcBits := by
    rw [State.resetOf_pc hvalid]
    omega
  have hsp : (State.resetOf c).sp.toNat < 2 ^ c.spBits := by
    rw [State.resetOf_sp hvalid]
    exact (Cfg.valid_stack hvalid).2
  have hzero (present : Bool) (n : Nat) : maskedReg present n 0 = true := by cases present <;> simp [maskedReg]
  exact {
    valid := hvalid, pc := hpc, sp := hsp
    hwLength := Nat.zero_le 3, hwEntries := List.forall_mem_nil _, hwKind := .inr rfl
    rampd := hzero .., rampx := hzero .., rampy := hzero .., rampz := hzero .., eind := hzero ..
    dmWf := rfl, dmRange := List.forall_mem_nil _, pmWf := rfl, pmRange := List.forall_mem_nil _
    pending := List.forall_mem_nil _ }

/-- Settles O15: the boundary, the entry, and each write of an instruction keep every field's bound. -/
theorem stepKeepsInvariant : Obligations.StepKeepsInvariant := by
  intro s t hs h
  rw [State.inv_iff_good] at hs ⊢
  obtain rfl | ⟨i, u, hu, hi⟩ | ⟨n, -, -, htake⟩ := step_next h
  · exact hs.boundary
  · have hgood : u.Good := by
      obtain rfl | rfl := hu
      · exact hs.boundary
      · exact hs.boundary.setSleeping false
    exact (hgood.setIrqInhibit false).effects (exec_effects hi)
  · exact hs.boundary.takeInterrupt htake

end
end Sys2Proof.Machine

/-! PROOFS. Decode and encode, 30_encoding.md table R130: each word lies in one row (but for five), the fields of a word
and the formats that write them undo each other, format by format, and so do `decodeBytes` and `encode`. -/

namespace Sys2Proof

open Machine

/-! ## One row for each word -/

/-- The words that an unlisted row's mask holds beside their own row: NOP and the four indirect jumps and calls. -/
def doubledWords : List Word := [0x0000, 0x9409, 0x9419, 0x9509, 0x9519]

/-- The row of one doubled word. -/
def Row.isDoubled (row : Row) : Bool := row.mask == 0xFFFF && row.value ∈ doubledWords

/-- The rows that can hold a word whose bit `k` is `b`. -/
def rowsWith (k : Nat) (b : Bool) (rows : List Row) : List Row :=
  rows.filter fun row => !row.mask.getLsbD k || row.value.getLsbD k == b

/-- One row is left, and it fixes no bit below `k`; or so it is after the choice of each bit below, from the top. -/
def splitsToOne (k : Nat) (rows : List Row) : Bool :=
  (rows.length == 1 && rows.all fun row => row.mask &&& BitVec.ofNat 16 (2 ^ k - 1) == 0) ||
    match k with
    | 0 => false
    | k + 1 => splitsToOne k (rowsWith k false rows) && splitsToOne k (rowsWith k true rows)

/-- The word has the bits from `k` up that the row fixes. -/
def Row.agreesFrom (k : Nat) (w : Word) (row : Row) : Prop :=
  ∀ j, k ≤ j → row.mask.getLsbD j = true → w.getLsbD j = row.value.getLsbD j

theorem inRow_iff_agreesFrom {row : Row} {w : Word} (hv : row.value &&& row.mask = row.value) :
    inRow row.mask row.value w = true ↔ row.agreesFrom 0 w := by
  rw [inRow, beq_iff_eq]
  constructor
  · intro h j _ hm
    rw [← h, BitVec.getLsbD_and, hm, Bool.and_true]
  · intro h
    refine BitVec.eq_of_getLsbD_eq fun j _ => ?_
    rw [BitVec.getLsbD_and, ← hv, BitVec.getLsbD_and]
    cases hm : row.mask.getLsbD j with
    | true => rw [h j (Nat.zero_le j) hm]
    | false => simp

theorem agreesFrom_zero_of_no_low_bit {k : Nat} {row : Row} {w : Word} (h : row.agreesFrom k w) (hk : k ≤ 16)
    (hlow : row.mask &&& BitVec.ofNat 16 (2 ^ k - 1) = 0#16) : row.agreesFrom 0 w := by
  intro j _ hm
  refine h j (not_lt.1 fun hj => ?_) hm
  have hj' : j < 16 := by omega
  have hbit : (row.mask &&& BitVec.ofNat 16 (2 ^ k - 1)).getLsbD j = false := by rw [hlow, BitVec.getLsbD_zero]
  rw [BitVec.getLsbD_and, hm, BitVec.getLsbD_ofNat, Nat.testBit_two_pow_sub_one] at hbit
  simp [hj, hj'] at hbit

/-- The rows that can hold a word are among those that can hold one with its bit `k`. -/
theorem filter_rowsWith {k : Nat} {rows : List Row} {w : Word} (hv : ∀ row ∈ rows, row.value &&& row.mask = row.value) :
    (rowsWith k (w.getLsbD k) rows).filter (fun row => inRow row.mask row.value w) =
      rows.filter fun row => inRow row.mask row.value w := by
  rw [rowsWith, List.filter_filter]
  refine List.filter_congr fun row hrow => ?_
  cases hin : inRow row.mask row.value w with
  | false => rfl
  | true =>
    have hbit := (inRow_iff_agreesFrom (hv row hrow)).1 hin k (Nat.zero_le k)
    cases hm : row.mask.getLsbD k with
    | false => rfl
    | true => simp [hbit hm]

/-- The check decides what it says: each word is left with one row. -/
theorem length_filter_of_splitsToOne {k : Nat} {rows : List Row} {w : Word} (h : splitsToOne k rows = true)
    (hk : k ≤ 16) (hv : ∀ row ∈ rows, row.value &&& row.mask = row.value) (hw : ∀ row ∈ rows, row.agreesFrom k w) :
    (rows.filter fun row => inRow row.mask row.value w).length = 1 := by
  induction k generalizing rows with
  | zero =>
    simp only [splitsToOne, Bool.or_false, Bool.and_eq_true, beq_iff_eq] at h
    have hall : rows.filter (fun row => inRow row.mask row.value w) = rows :=
      List.filter_eq_self.2 fun row hrow => (inRow_iff_agreesFrom (hv row hrow)).2 (hw row hrow)
    rw [hall, h.1]
  | succ k ih =>
    rw [splitsToOne, Bool.or_eq_true] at h
    rcases h with h | h
    · simp only [Bool.and_eq_true, beq_iff_eq, List.all_eq_true] at h
      obtain ⟨hone, hlow⟩ := h
      have hall : rows.filter (fun row => inRow row.mask row.value w) = rows := List.filter_eq_self.2 fun row hrow =>
        (inRow_iff_agreesFrom (hv row hrow)).2 (agreesFrom_zero_of_no_low_bit (hw row hrow) hk (hlow row hrow))
      rw [hall, hone]
    · rw [Bool.and_eq_true] at h
      rw [← filter_rowsWith (k := k) hv]
      have hsub : ∀ row ∈ rowsWith k (w.getLsbD k) rows, row ∈ rows ∧
          (row.mask.getLsbD k = true → w.getLsbD k = row.value.getLsbD k) := fun row hrow => by
        obtain ⟨hmem, hbit⟩ := List.mem_filter.1 hrow
        refine ⟨hmem, fun hm => ?_⟩
        rw [hm, Bool.not_true, Bool.false_or, beq_iff_eq] at hbit
        exact hbit.symm
      refine ih ?_ (by omega) (fun row hrow => hv row (hsub row hrow).1) fun row hrow j hj hm => ?_
      · cases w.getLsbD k with
        | false => exact h.1
        | true => exact h.2
      · obtain rfl | hj := hj.eq_or_lt
        · exact (hsub row hrow).2 hm
        · exact hw row (hsub row hrow).1 j hj hm

/-- Without the rows of the doubled words, one row holds each word. -/
theorem length_filter_undoubled (w : Word) : ((opcodeTable.filter fun row => !row.isDoubled).filter
    fun row => inRow row.mask row.value w).length = 1 := by
  refine length_filter_of_splitsToOne (k := 16) (by decide +kernel) le_rfl (by decide +kernel) fun row _ j hj hm => ?_
  rw [BitVec.getLsbD_of_ge _ _ hj] at hm
  cases hm

theorem filter_doubled : opcodeTable.filter Row.isDoubled =
    [⟨0xFFFF, 0x0000, fun _ _ => .nop⟩, ⟨0xFFFF, 0x9409, fun _ _ => .ijmp⟩, ⟨0xFFFF, 0x9419, fun _ _ => .eijmp⟩,
      ⟨0xFFFF, 0x9509, fun _ _ => .icall⟩, ⟨0xFFFF, 0x9519, fun _ _ => .eicall⟩] := rfl

theorem inRow_all_ones {v w : Word} : inRow 0xFFFF v w = (w == v) := by
  have hall : w &&& 0xFFFF = w := BitVec.and_allOnes
  rw [inRow, hall]

theorem length_filter_doubled (w : Word) : ((opcodeTable.filter Row.isDoubled).filter
    fun row => inRow row.mask row.value w).length = if w ∈ doubledWords then 1 else 0 := by
  rw [filter_doubled]
  by_cases hw : w ∈ doubledWords
  · rw [if_pos hw]
    simp only [doubledWords, List.mem_cons, List.not_mem_nil, or_false] at hw
    obtain rfl | rfl | rfl | rfl | rfl := hw <;> rfl
  · rw [if_neg hw]
    simp only [doubledWords, List.mem_cons, List.not_mem_nil, or_false, not_or] at hw
    obtain ⟨h0, h1, h2, h3, h4⟩ := hw
    refine List.length_eq_zero_iff.2 (List.filter_eq_nil_iff.2 ?_)
    simp only [List.forall_mem_cons, inRow_all_ones, beq_iff_eq]
    exact ⟨h0, h1, h2, h3, h4, List.forall_mem_nil _⟩

/-- Settles O4: the rows of the doubled words apart, a check that splits the words bit by bit finds one row for each. -/
theorem oneRowPerWord : Obligations.OneRowPerWord := by
  intro w
  have hsplit := List.length_eq_length_filter_add (l := opcodeTable.filter fun row => inRow row.mask row.value w)
    Row.isDoubled
  rw [List.filter_comm, length_filter_doubled, List.filter_comm, length_filter_undoubled] at hsplit
  rw [hsplit]
  change _ = if w ∈ doubledWords then 2 else 1
  split <;> rfl

end Sys2Proof

/-! PROOFS. The formats of 30_encoding.md tables R112 and R130: the fields of a word of a row, put together by the
format, are the word again, and the operands of an instruction are the fields of the word its format writes. -/

namespace Sys2Proof

open Machine

/-! ## The registers a short field can name (10_state.md R22), bit by bit -/

theorem highReg_fieldD4 (w : Word) : highReg (fieldD4 w) = true := by
  unfold fieldD4
  generalize w.extractLsb' 4 4 = x
  revert x; decide

theorem highReg_fieldR4 (w : Word) : highReg (fieldR4 w) = true := by
  unfold fieldR4
  generalize w.extractLsb' 0 4 = x
  revert x; decide

theorem mulReg_fieldD3 (w : Word) : mulReg (fieldD3 w) = true := by
  unfold fieldD3
  generalize w.extractLsb' 4 3 = x
  revert x; decide

theorem mulReg_fieldR3 (w : Word) : mulReg (fieldR3 w) = true := by
  unfold fieldR3
  generalize w.extractLsb' 0 3 = x
  revert x; decide

theorem evenReg_fieldPairD (w : Word) : evenReg (fieldPairD w) = true := by
  unfold fieldPairD
  generalize w.extractLsb' 4 4 = x
  revert x; decide

theorem evenReg_fieldPairR (w : Word) : evenReg (fieldPairR w) = true := by
  unfold fieldPairR
  generalize w.extractLsb' 0 4 = x
  revert x; decide

theorem pairReg_fieldWordPair (w : Word) : pairReg (fieldWordPair w) = true := by
  unfold fieldWordPair
  generalize w.extractLsb' 4 2 = x
  revert x; decide

theorem tinyAddr_fieldTinyAddr (w : Word) : tinyAddr (fieldTinyAddr w) = true := by
  unfold fieldTinyAddr
  generalize w.extractLsb' 8 1 = x, w.extractLsb' 10 1 = y, w.extractLsb' 9 1 = z, w.extractLsb' 0 4 = v
  revert x y z v; decide

theorem highReg_bit {d : Reg} (h : highReg d = true) : d.getLsbD 4 = true := by
  revert d; decide

theorem mulReg_bits {d : Reg} (h : mulReg d = true) : d.getLsbD 4 = true ∧ d.getLsbD 3 = false := by
  revert d; decide

theorem evenReg_bit {d : Reg} (h : evenReg d = true) : d.getLsbD 0 = false := by
  revert d; decide

theorem pairReg_bits {d : Reg} (h : pairReg d = true) :
    d.getLsbD 4 = true ∧ d.getLsbD 3 = true ∧ d.getLsbD 0 = false := by
  revert d; decide

theorem tinyAddr_bit {a : Byte} (h : tinyAddr a = true) : a.getLsbD 7 = !a.getLsbD 6 := by
  revert a; decide

/-! ## The formats -/

section
variable {w w2 : Word} {d r : Reg}

/-! ### `F_RD_RR`, beside `inRow_encRdRr` -/

theorem encRdRr_fields {op : BitVec 6} (h : inRow 0xFC00 (op ++ 0#10) w = true) :
    encRdRr op (fieldD w) (fieldR w) = w := by
  refine BitVec.eq_of_getLsbD_eq fun j hj => ?_
  simp only [inRow, Laws.and_beq, List.range, List.range.loop, BitVec.getLsbD_append] at h
  simp at h
  simp only [encRdRr, fieldD, fieldR, BitVec.getLsbD_append, BitVec.getLsbD_extractLsb']
  interval_cases j <;> simp [h]

/-! ### `F_RD_K` -/

theorem encRdK_fields {op : BitVec 4} (h : inRow 0xF000 (op ++ 0#12) w = true) :
    encRdK op (fieldD4 w) (fieldK8 w) = w := by
  refine BitVec.eq_of_getLsbD_eq fun j hj => ?_
  simp only [inRow, Laws.and_beq, List.range, List.range.loop, BitVec.getLsbD_append] at h
  simp at h
  simp only [encRdK, fieldD4, fieldK8, BitVec.getLsbD_append, BitVec.getLsbD_extractLsb']
  interval_cases j <;> simp [h]

theorem inRow_encRdK (op : BitVec 4) (d : Reg) (k : Byte) : inRow 0xF000 (op ++ 0#12) (encRdK op d k) = true := by
  simp only [inRow, Laws.and_beq, List.range, List.range.loop, encRdK, BitVec.getLsbD_append]
  simp

theorem fieldD4_encRdK (op : BitVec 4) (d : Reg) (k : Byte) (h : highReg d = true) : fieldD4 (encRdK op d k) = d := by
  have hbits := highReg_bit h
  refine BitVec.eq_of_getLsbD_eq fun j hj => ?_
  simp only [fieldD4, encRdK, BitVec.getLsbD_append, BitVec.getLsbD_extractLsb']
  interval_cases j <;> simp_all

theorem fieldK8_encRdK (op : BitVec 4) (d : Reg) (k : Byte) : fieldK8 (encRdK op d k) = k := by
  refine BitVec.eq_of_getLsbD_eq fun j hj => ?_
  simp only [fieldK8, encRdK, BitVec.getLsbD_append, BitVec.getLsbD_extractLsb']
  interval_cases j <;> simp

/-! ### `F_RD` -/

theorem encRd_fields {op : BitVec 7} {low : BitVec 4} (h : inRow 0xFE0F (op ++ 0#5 ++ low) w = true) :
    encRd op (fieldD w) low = w := by
  refine BitVec.eq_of_getLsbD_eq fun j hj => ?_
  simp only [inRow, Laws.and_beq, List.range, List.range.loop, BitVec.getLsbD_append] at h
  simp at h
  simp only [encRd, fieldD, BitVec.getLsbD_append, BitVec.getLsbD_extractLsb']
  interval_cases j <;> simp [h]

theorem inRow_encRd (op : BitVec 7) (low : BitVec 4) (d : Reg) :
    inRow 0xFE0F (op ++ 0#5 ++ low) (encRd op d low) = true := by
  simp only [inRow, Laws.and_beq, List.range, List.range.loop, encRd, BitVec.getLsbD_append]
  simp

theorem fieldD_encRd (op : BitVec 7) (low : BitVec 4) (d : Reg) : fieldD (encRd op d low) = d := by
  refine BitVec.eq_of_getLsbD_eq fun j hj => ?_
  simp only [fieldD, encRd, BitVec.getLsbD_append, BitVec.getLsbD_extractLsb']
  interval_cases j <;> simp

/-! ### `F_MUL3` -/

theorem encMul3_fields {hi lo : BitVec 1} (h : inRow 0xFF88 (0b00000011#8 ++ hi ++ 0#3 ++ lo ++ 0#3) w = true) :
    encMul3 hi lo (fieldD3 w) (fieldR3 w) = w := by
  refine BitVec.eq_of_getLsbD_eq fun j hj => ?_
  simp only [inRow, Laws.and_beq, List.range, List.range.loop, BitVec.getLsbD_append] at h
  simp at h
  simp only [encMul3, fieldD3, fieldR3, BitVec.getLsbD_append, BitVec.getLsbD_extractLsb']
  interval_cases j <;> simp [h]

theorem inRow_encMul3 (hi lo : BitVec 1) (d r : Reg) :
    inRow 0xFF88 (0b00000011#8 ++ hi ++ 0#3 ++ lo ++ 0#3) (encMul3 hi lo d r) = true := by
  simp only [inRow, Laws.and_beq, List.range, List.range.loop, encMul3, BitVec.getLsbD_append]
  simp

theorem fieldD3_encMul3 (hi lo : BitVec 1) (d r : Reg) (h : mulReg d = true) : fieldD3 (encMul3 hi lo d r) = d := by
  have hbits := mulReg_bits h
  refine BitVec.eq_of_getLsbD_eq fun j hj => ?_
  simp only [fieldD3, encMul3, BitVec.getLsbD_append, BitVec.getLsbD_extractLsb']
  interval_cases j <;> simp_all

theorem fieldR3_encMul3 (hi lo : BitVec 1) (d r : Reg) (h : mulReg r = true) : fieldR3 (encMul3 hi lo d r) = r := by
  have hbits := mulReg_bits h
  refine BitVec.eq_of_getLsbD_eq fun j hj => ?_
  simp only [fieldR3, encMul3, BitVec.getLsbD_append, BitVec.getLsbD_extractLsb']
  interval_cases j <;> simp_all

/-! ### `F_LDD` -/

theorem encLdd_fields {s y : BitVec 1} (h : inRow 0xD208 (0b100000#6 ++ s ++ 0#5 ++ y ++ 0#3) w = true) :
    encLdd s y (fieldD w) (fieldQ w) = w := by
  refine BitVec.eq_of_getLsbD_eq fun j hj => ?_
  simp only [inRow, Laws.and_beq, List.range, List.range.loop, BitVec.getLsbD_append] at h
  simp at h
  simp only [encLdd, fieldD, fieldQ, BitVec.getLsbD_append, BitVec.getLsbD_extractLsb']
  interval_cases j <;> simp [h]

theorem inRow_encLdd (s y : BitVec 1) (d : Reg) (q : BitVec 6) :
    inRow 0xD208 (0b100000#6 ++ s ++ 0#5 ++ y ++ 0#3) (encLdd s y d q) = true := by
  simp only [inRow, Laws.and_beq, List.range, List.range.loop, encLdd, BitVec.getLsbD_append]
  simp

theorem fieldD_encLdd (s y : BitVec 1) (d : Reg) (q : BitVec 6) : fieldD (encLdd s y d q) = d := by
  refine BitVec.eq_of_getLsbD_eq fun j hj => ?_
  simp only [fieldD, encLdd, BitVec.getLsbD_append, BitVec.getLsbD_extractLsb']
  interval_cases j <;> simp

theorem fieldQ_encLdd (s y : BitVec 1) (d : Reg) (q : BitVec 6) : fieldQ (encLdd s y d q) = q := by
  refine BitVec.eq_of_getLsbD_eq fun j hj => ?_
  simp only [fieldQ, encLdd, BitVec.getLsbD_append, BitVec.getLsbD_extractLsb']
  interval_cases j <;> simp

/-! ### `F_LDS16` -/

theorem encTiny_fields {op : BitVec 5} (h : inRow 0xF800 (op ++ 0#11) w = true) :
    encTiny op (fieldD4 w) (fieldTinyAddr w) = w := by
  refine BitVec.eq_of_getLsbD_eq fun j hj => ?_
  simp only [inRow, Laws.and_beq, List.range, List.range.loop, BitVec.getLsbD_append] at h
  simp at h
  simp only [encTiny, fieldD4, fieldTinyAddr, BitVec.getLsbD_append, BitVec.getLsbD_extractLsb']
  interval_cases j <;> simp [h]

theorem inRow_encTiny (op : BitVec 5) (d : Reg) (a : Byte) : inRow 0xF800 (op ++ 0#11) (encTiny op d a) = true := by
  simp only [inRow, Laws.and_beq, List.range, List.range.loop, encTiny, BitVec.getLsbD_append]
  simp

theorem fieldD4_encTiny (op : BitVec 5) (d : Reg) (a : Byte) (h : highReg d = true) :
    fieldD4 (encTiny op d a) = d := by
  have hbits := highReg_bit h
  refine BitVec.eq_of_getLsbD_eq fun j hj => ?_
  simp only [fieldD4, encTiny, BitVec.getLsbD_append, BitVec.getLsbD_extractLsb']
  interval_cases j <;> simp_all

theorem fieldTinyAddr_encTiny (op : BitVec 5) (d : Reg) (a : Byte) (h : tinyAddr a = true) :
    fieldTinyAddr (encTiny op d a) = a := by
  have hbits := tinyAddr_bit h
  refine BitVec.eq_of_getLsbD_eq fun j hj => ?_
  simp only [fieldTinyAddr, encTiny, BitVec.getLsbD_not, BitVec.getLsbD_append, BitVec.getLsbD_extractLsb']
  interval_cases j <;> simp_all

/-! ### MOVW -/

theorem movwWord_fields {op : BitVec 8} (h : inRow 0xFF00 (op ++ 0#8) w = true) :
    op ++ (fieldPairD w).extractLsb' 1 4 ++ (fieldPairR w).extractLsb' 1 4 = w := by
  refine BitVec.eq_of_getLsbD_eq fun j hj => ?_
  simp only [inRow, Laws.and_beq, List.range, List.range.loop, BitVec.getLsbD_append] at h
  simp at h
  simp only [fieldPairD, fieldPairR, BitVec.getLsbD_append, BitVec.getLsbD_extractLsb']
  interval_cases j <;> simp [h]

theorem inRow_movwWord (op : BitVec 8) (d r : Reg) :
    inRow 0xFF00 (op ++ 0#8) (op ++ d.extractLsb' 1 4 ++ r.extractLsb' 1 4) = true := by
  simp only [inRow, Laws.and_beq, List.range, List.range.loop, BitVec.getLsbD_append]
  simp

theorem fieldPairD_movwWord (op : BitVec 8) (d r : Reg) (h : evenReg d = true) :
    fieldPairD (op ++ d.extractLsb' 1 4 ++ r.extractLsb' 1 4) = d := by
  have hbits := evenReg_bit h
  refine BitVec.eq_of_getLsbD_eq fun j hj => ?_
  simp only [fieldPairD, BitVec.getLsbD_append, BitVec.getLsbD_extractLsb']
  interval_cases j <;> simp_all

theorem fieldPairR_movwWord (op : BitVec 8) (d r : Reg) (h : evenReg r = true) :
    fieldPairR (op ++ d.extractLsb' 1 4 ++ r.extractLsb' 1 4) = r := by
  have hbits := evenReg_bit h
  refine BitVec.eq_of_getLsbD_eq fun j hj => ?_
  simp only [fieldPairR, BitVec.getLsbD_append, BitVec.getLsbD_extractLsb']
  interval_cases j <;> simp_all

/-! ### MULS -/

theorem mulsWord_fields {op : BitVec 8} (h : inRow 0xFF00 (op ++ 0#8) w = true) :
    op ++ (fieldD4 w).extractLsb' 0 4 ++ (fieldR4 w).extractLsb' 0 4 = w := by
  refine BitVec.eq_of_getLsbD_eq fun j hj => ?_
  simp only [inRow, Laws.and_beq, List.range, List.range.loop, BitVec.getLsbD_append] at h
  simp at h
  simp only [fieldD4, fieldR4, BitVec.getLsbD_append, BitVec.getLsbD_extractLsb']
  interval_cases j <;> simp [h]

theorem inRow_mulsWord (op : BitVec 8) (d r : Reg) :
    inRow 0xFF00 (op ++ 0#8) (op ++ d.extractLsb' 0 4 ++ r.extractLsb' 0 4) = true := by
  simp only [inRow, Laws.and_beq, List.range, List.range.loop, BitVec.getLsbD_append]
  simp

theorem fieldD4_mulsWord (op : BitVec 8) (d r : Reg) (h : highReg d = true) :
    fieldD4 (op ++ d.extractLsb' 0 4 ++ r.extractLsb' 0 4) = d := by
  have hbits := highReg_bit h
  refine BitVec.eq_of_getLsbD_eq fun j hj => ?_
  simp only [fieldD4, BitVec.getLsbD_append, BitVec.getLsbD_extractLsb']
  interval_cases j <;> simp_all

theorem fieldR4_mulsWord (op : BitVec 8) (d r : Reg) (h : highReg r = true) :
    fieldR4 (op ++ d.extractLsb' 0 4 ++ r.extractLsb' 0 4) = r := by
  have hbits := highReg_bit h
  refine BitVec.eq_of_getLsbD_eq fun j hj => ?_
  simp only [fieldR4, BitVec.getLsbD_append, BitVec.getLsbD_extractLsb']
  interval_cases j <;> simp_all

/-! ### BSET and BCLR -/

theorem statusBitWord_fields {op : BitVec 9} (h : inRow 0xFF8F (op ++ 0#3 ++ 0b1000#4) w = true) :
    op ++ (fieldS w) ++ 0b1000#4 = w := by
  refine BitVec.eq_of_getLsbD_eq fun j hj => ?_
  simp only [inRow, Laws.and_beq, List.range, List.range.loop, BitVec.getLsbD_append] at h
  simp at h
  simp only [fieldS, BitVec.getLsbD_append, BitVec.getLsbD_extractLsb']
  interval_cases j <;> simp [h]

theorem inRow_statusBitWord (op : BitVec 9) (b : BitVec 3) :
    inRow 0xFF8F (op ++ 0#3 ++ 0b1000#4) (op ++ b ++ 0b1000#4) = true := by
  simp only [inRow, Laws.and_beq, List.range, List.range.loop, BitVec.getLsbD_append]
  simp

theorem fieldS_statusBitWord (op : BitVec 9) (b : BitVec 3) : fieldS (op ++ b ++ 0b1000#4) = b := by
  refine BitVec.eq_of_getLsbD_eq fun j hj => ?_
  simp only [fieldS, BitVec.getLsbD_append, BitVec.getLsbD_extractLsb']
  interval_cases j <;> simp

/-! ### DES -/

theorem roundWord_fields {op : BitVec 8} (h : inRow 0xFF0F (op ++ 0#4 ++ 0b1011#4) w = true) :
    op ++ (fieldRound w) ++ 0b1011#4 = w := by
  refine BitVec.eq_of_getLsbD_eq fun j hj => ?_
  simp only [inRow, Laws.and_beq, List.range, List.range.loop, BitVec.getLsbD_append] at h
  simp at h
  simp only [fieldRound, BitVec.getLsbD_append, BitVec.getLsbD_extractLsb']
  interval_cases j <;> simp [h]

theorem inRow_roundWord (op : BitVec 8) (k : BitVec 4) :
    inRow 0xFF0F (op ++ 0#4 ++ 0b1011#4) (op ++ k ++ 0b1011#4) = true := by
  simp only [inRow, Laws.and_beq, List.range, List.range.loop, BitVec.getLsbD_append]
  simp

theorem fieldRound_roundWord (op : BitVec 8) (k : BitVec 4) : fieldRound (op ++ k ++ 0b1011#4) = k := by
  refine BitVec.eq_of_getLsbD_eq fun j hj => ?_
  simp only [fieldRound, BitVec.getLsbD_append, BitVec.getLsbD_extractLsb']
  interval_cases j <;> simp

/-! ### ADIW and SBIW -/

theorem wordOpWord_fields {op : BitVec 8} (h : inRow 0xFF00 (op ++ 0#8) w = true) :
    op ++ (fieldK6 w).extractLsb' 4 2 ++ (fieldWordPair w).extractLsb' 1 2 ++ (fieldK6 w).extractLsb' 0 4 = w := by
  refine BitVec.eq_of_getLsbD_eq fun j hj => ?_
  simp only [inRow, Laws.and_beq, List.range, List.range.loop, BitVec.getLsbD_append] at h
  simp at h
  simp only [fieldWordPair, fieldK6, BitVec.getLsbD_append, BitVec.getLsbD_extractLsb']
  interval_cases j <;> simp [h]

theorem inRow_wordOpWord (op : BitVec 8) (d : Reg) (k : BitVec 6) :
    inRow 0xFF00 (op ++ 0#8) (op ++ k.extractLsb' 4 2 ++ d.extractLsb' 1 2 ++ k.extractLsb' 0 4) = true := by
  simp only [inRow, Laws.and_beq, List.range, List.range.loop, BitVec.getLsbD_append]
  simp

theorem fieldWordPair_wordOpWord (op : BitVec 8) (d : Reg) (k : BitVec 6) (h : pairReg d = true) :
    fieldWordPair (op ++ k.extractLsb' 4 2 ++ d.extractLsb' 1 2 ++ k.extractLsb' 0 4) = d := by
  have hbits := pairReg_bits h
  refine BitVec.eq_of_getLsbD_eq fun j hj => ?_
  simp only [fieldWordPair, BitVec.getLsbD_append, BitVec.getLsbD_extractLsb']
  interval_cases j <;> simp_all

theorem fieldK6_wordOpWord (op : BitVec 8) (d : Reg) (k : BitVec 6) :
    fieldK6 (op ++ k.extractLsb' 4 2 ++ d.extractLsb' 1 2 ++ k.extractLsb' 0 4) = k := by
  refine BitVec.eq_of_getLsbD_eq fun j hj => ?_
  simp only [fieldK6, BitVec.getLsbD_append, BitVec.getLsbD_extractLsb']
  interval_cases j <;> simp

/-! ### The bits of I/O registers -/

theorem ioBitWord_fields {op : BitVec 8} (h : inRow 0xFF00 (op ++ 0#8) w = true) :
    op ++ (fieldA5 w) ++ (fieldB w) = w := by
  refine BitVec.eq_of_getLsbD_eq fun j hj => ?_
  simp only [inRow, Laws.and_beq, List.range, List.range.loop, BitVec.getLsbD_append] at h
  simp at h
  simp only [fieldA5, fieldB, BitVec.getLsbD_append, BitVec.getLsbD_extractLsb']
  interval_cases j <;> simp [h]

theorem inRow_ioBitWord (op : BitVec 8) (a : BitVec 5) (b : BitVec 3) :
    inRow 0xFF00 (op ++ 0#8) (op ++ a ++ b) = true := by
  simp only [inRow, Laws.and_beq, List.range, List.range.loop, BitVec.getLsbD_append]
  simp

theorem fieldA5_ioBitWord (op : BitVec 8) (a : BitVec 5) (b : BitVec 3) : fieldA5 (op ++ a ++ b) = a := by
  refine BitVec.eq_of_getLsbD_eq fun j hj => ?_
  simp only [fieldA5, BitVec.getLsbD_append, BitVec.getLsbD_extractLsb']
  interval_cases j <;> simp

theorem fieldB_ioBitWord (op : BitVec 8) (a : BitVec 5) (b : BitVec 3) : fieldB (op ++ a ++ b) = b := by
  refine BitVec.eq_of_getLsbD_eq fun j hj => ?_
  simp only [fieldB, BitVec.getLsbD_append, BitVec.getLsbD_extractLsb']
  interval_cases j <;> simp

/-! ### IN and OUT -/

theorem inOutWord_fields {op : BitVec 5} (h : inRow 0xF800 (op ++ 0#11) w = true) :
    op ++ (fieldA6 w).extractLsb' 4 2 ++ (fieldD w) ++ (fieldA6 w).extractLsb' 0 4 = w := by
  refine BitVec.eq_of_getLsbD_eq fun j hj => ?_
  simp only [inRow, Laws.and_beq, List.range, List.range.loop, BitVec.getLsbD_append] at h
  simp at h
  simp only [fieldD, fieldA6, BitVec.getLsbD_append, BitVec.getLsbD_extractLsb']
  interval_cases j <;> simp [h]

theorem inRow_inOutWord (op : BitVec 5) (d : Reg) (a : BitVec 6) :
    inRow 0xF800 (op ++ 0#11) (op ++ a.extractLsb' 4 2 ++ d ++ a.extractLsb' 0 4) = true := by
  simp only [inRow, Laws.and_beq, List.range, List.range.loop, BitVec.getLsbD_append]
  simp

theorem fieldD_inOutWord (op : BitVec 5) (d : Reg) (a : BitVec 6) :
    fieldD (op ++ a.extractLsb' 4 2 ++ d ++ a.extractLsb' 0 4) = d := by
  refine BitVec.eq_of_getLsbD_eq fun j hj => ?_
  simp only [fieldD, BitVec.getLsbD_append, BitVec.getLsbD_extractLsb']
  interval_cases j <;> simp

theorem fieldA6_inOutWord (op : BitVec 5) (d : Reg) (a : BitVec 6) :
    fieldA6 (op ++ a.extractLsb' 4 2 ++ d ++ a.extractLsb' 0 4) = a := by
  refine BitVec.eq_of_getLsbD_eq fun j hj => ?_
  simp only [fieldA6, BitVec.getLsbD_append, BitVec.getLsbD_extractLsb']
  interval_cases j <;> simp

/-! ### RJMP and RCALL -/

theorem relativeWord_fields {op : BitVec 4} (h : inRow 0xF000 (op ++ 0#12) w = true) :
    op ++ (fieldK12 w) = w := by
  refine BitVec.eq_of_getLsbD_eq fun j hj => ?_
  simp only [inRow, Laws.and_beq, List.range, List.range.loop, BitVec.getLsbD_append] at h
  simp at h
  simp only [fieldK12, BitVec.getLsbD_append, BitVec.getLsbD_extractLsb']
  interval_cases j <;> simp [h]

theorem inRow_relativeWord (op : BitVec 4) (k : BitVec 12) : inRow 0xF000 (op ++ 0#12) (op ++ k) = true := by
  simp only [inRow, Laws.and_beq, List.range, List.range.loop, BitVec.getLsbD_append]
  simp

theorem fieldK12_relativeWord (op : BitVec 4) (k : BitVec 12) : fieldK12 (op ++ k) = k := by
  refine BitVec.eq_of_getLsbD_eq fun j hj => ?_
  simp only [fieldK12, BitVec.getLsbD_append, BitVec.getLsbD_extractLsb']
  interval_cases j <;> simp

/-! ### BRBS and BRBC -/

theorem branchWord_fields {op : BitVec 6} (h : inRow 0xFC00 (op ++ 0#10) w = true) :
    op ++ (fieldK7 w) ++ (fieldB w) = w := by
  refine BitVec.eq_of_getLsbD_eq fun j hj => ?_
  simp only [inRow, Laws.and_beq, List.range, List.range.loop, BitVec.getLsbD_append] at h
  simp at h
  simp only [fieldK7, fieldB, BitVec.getLsbD_append, BitVec.getLsbD_extractLsb']
  interval_cases j <;> simp [h]

theorem inRow_branchWord (op : BitVec 6) (k : BitVec 7) (b : BitVec 3) :
    inRow 0xFC00 (op ++ 0#10) (op ++ k ++ b) = true := by
  simp only [inRow, Laws.and_beq, List.range, List.range.loop, BitVec.getLsbD_append]
  simp

theorem fieldK7_branchWord (op : BitVec 6) (k : BitVec 7) (b : BitVec 3) : fieldK7 (op ++ k ++ b) = k := by
  refine BitVec.eq_of_getLsbD_eq fun j hj => ?_
  simp only [fieldK7, BitVec.getLsbD_append, BitVec.getLsbD_extractLsb']
  interval_cases j <;> simp

theorem fieldB_branchWord (op : BitVec 6) (k : BitVec 7) (b : BitVec 3) : fieldB (op ++ k ++ b) = b := by
  refine BitVec.eq_of_getLsbD_eq fun j hj => ?_
  simp only [fieldB, BitVec.getLsbD_append, BitVec.getLsbD_extractLsb']
  interval_cases j <;> simp

/-! ### The bits of registers -/

theorem regBitWord_fields {op : BitVec 7} (h : inRow 0xFE08 (op ++ 0#9) w = true) :
    op ++ (fieldD w) ++ 0b0#1 ++ (fieldB w) = w := by
  refine BitVec.eq_of_getLsbD_eq fun j hj => ?_
  simp only [inRow, Laws.and_beq, List.range, List.range.loop, BitVec.getLsbD_append] at h
  simp at h
  simp only [fieldD, fieldB, BitVec.getLsbD_append, BitVec.getLsbD_extractLsb']
  interval_cases j <;> simp [h]

theorem inRow_regBitWord (op : BitVec 7) (d : Reg) (b : BitVec 3) :
    inRow 0xFE08 (op ++ 0#9) (op ++ d ++ 0b0#1 ++ b) = true := by
  simp only [inRow, Laws.and_beq, List.range, List.range.loop, BitVec.getLsbD_append]
  simp

theorem fieldD_regBitWord (op : BitVec 7) (d : Reg) (b : BitVec 3) : fieldD (op ++ d ++ 0b0#1 ++ b) = d := by
  refine BitVec.eq_of_getLsbD_eq fun j hj => ?_
  simp only [fieldD, BitVec.getLsbD_append, BitVec.getLsbD_extractLsb']
  interval_cases j <;> simp

theorem fieldB_regBitWord (op : BitVec 7) (d : Reg) (b : BitVec 3) : fieldB (op ++ d ++ 0b0#1 ++ b) = b := by
  refine BitVec.eq_of_getLsbD_eq fun j hj => ?_
  simp only [fieldB, BitVec.getLsbD_append, BitVec.getLsbD_extractLsb']
  interval_cases j <;> simp

/-! ### JMP and CALL -/

theorem longWord_fields {op : BitVec 7} {low : BitVec 3} (h : inRow 0xFE0E (op ++ 0#5 ++ low ++ 0#1) w = true) :
    op ++ (fieldK22 w w2).extractLsb' 17 5 ++ low ++ (fieldK22 w w2).extractLsb' 16 1 = w := by
  refine BitVec.eq_of_getLsbD_eq fun j hj => ?_
  simp only [inRow, Laws.and_beq, List.range, List.range.loop, BitVec.getLsbD_append] at h
  simp at h
  simp only [fieldK22, BitVec.getLsbD_append, BitVec.getLsbD_extractLsb']
  interval_cases j <;> simp [h]

theorem fieldK22_low : (fieldK22 w w2).extractLsb' 0 16 = w2 := by
  refine BitVec.eq_of_getLsbD_eq fun j hj => ?_
  simp only [fieldK22, BitVec.getLsbD_append, BitVec.getLsbD_extractLsb']
  simp [hj]

theorem inRow_longWord (op : BitVec 7) (low : BitVec 3) (k : BitVec 22) : inRow 0xFE0E (op ++ 0#5 ++ low ++ 0#1)
    (op ++ k.extractLsb' 17 5 ++ low ++ k.extractLsb' 16 1) = true := by
  simp only [inRow, Laws.and_beq, List.range, List.range.loop, BitVec.getLsbD_append]
  simp

theorem fieldK22_longWord (op : BitVec 7) (low : BitVec 3) (k : BitVec 22) :
    fieldK22 (op ++ k.extractLsb' 17 5 ++ low ++ k.extractLsb' 16 1) (k.extractLsb' 0 16) = k := by
  refine BitVec.eq_of_getLsbD_eq fun j hj => ?_
  simp only [fieldK22, BitVec.getLsbD_append, BitVec.getLsbD_extractLsb']
  interval_cases j <;> simp

end

end Sys2Proof

/-! PROOFS. Decode and encode agree (30_encoding.md sections 1 to 4): each row builds, from a word of it, a well-formed
instruction with that word, and each well-formed instruction is what its row builds from its word. -/

namespace Sys2Proof

open Machine Laws

/-! ## The lengths of all instructions -/

/-- `Laws.Lengths`, for every instruction at once. -/
theorem isTwoWord_firstWord (i : Instr) : Lengths.Statement i := by
  cases i
  exacts [Lengths.nop, Lengths.unlisted0000 _, Lengths.movw _ _, Lengths.muls _ _, Lengths.mulsu _ _,
    Lengths.fmul _ _, Lengths.fmuls _ _, Lengths.fmulsu _ _, Lengths.cpc _ _, Lengths.sbc _ _, Lengths.add _ _,
    Lengths.cpse _ _, Lengths.cp _ _, Lengths.sub _ _, Lengths.adc _ _, Lengths.and _ _, Lengths.eor _ _,
    Lengths.or _ _, Lengths.mov _ _, Lengths.cpi _ _, Lengths.sbci _ _, Lengths.subi _ _, Lengths.ori _ _,
    Lengths.andi _ _, Lengths.lddZ _ _, Lengths.lddY _ _, Lengths.stdZ _ _, Lengths.stdY _ _, Lengths.lds _ _,
    Lengths.ldZinc _, Lengths.ldZdec _, Lengths.unlistedLd0011 _, Lengths.lpmRdZ _, Lengths.lpmRdZinc _,
    Lengths.elpmRdZ _, Lengths.elpmRdZinc _, Lengths.unlistedLd1000 _, Lengths.ldYinc _, Lengths.ldYdec _,
    Lengths.unlistedLd1011 _, Lengths.ldX _, Lengths.ldXinc _, Lengths.ldXdec _, Lengths.pop _, Lengths.sts _ _,
    Lengths.stZinc _, Lengths.stZdec _, Lengths.unlistedSt0011 _, Lengths.xch _, Lengths.las _, Lengths.lac _,
    Lengths.lat _, Lengths.unlistedSt1000 _, Lengths.stYinc _, Lengths.stYdec _, Lengths.unlistedSt1011 _,
    Lengths.stX _, Lengths.stXinc _, Lengths.stXdec _, Lengths.push _, Lengths.com _, Lengths.neg _, Lengths.swap _,
    Lengths.inc _, Lengths.reserved9404 _, Lengths.asr _, Lengths.lsr _, Lengths.ror _, Lengths.bset _,
    Lengths.bclr _, Lengths.ret, Lengths.reti, Lengths.reserved9528 _, Lengths.reserved9548 _, Lengths.sleep,
    Lengths.break_, Lengths.wdr, Lengths.reserved95b8 _, Lengths.lpm, Lengths.elpm, Lengths.spm, Lengths.spmZinc,
    Lengths.ijmp, Lengths.eijmp, Lengths.icall, Lengths.eicall, Lengths.unlisted94x9 _, Lengths.dec _, Lengths.des _,
    Lengths.unlisted95xB _, Lengths.jmp _, Lengths.call _, Lengths.adiw _ _, Lengths.sbiw _ _, Lengths.cbi _ _,
    Lengths.sbic _ _, Lengths.sbi _ _, Lengths.sbis _ _, Lengths.mul _ _, Lengths.in_ _ _, Lengths.out _ _,
    Lengths.rjmp _, Lengths.rcall _, Lengths.ldi _ _, Lengths.brbs _ _, Lengths.brbc _ _, Lengths.bld _ _,
    Lengths.bst _ _, Lengths.sbrc _ _, Lengths.sbrs _ _, Lengths.reservedF808 _, Lengths.ldsTiny _ _,
    Lengths.stsTiny _ _]

/-! ## From the word to the instruction -/

/-- The instruction a row builds from the words `w` and `w2` is well-formed, and they are its words. -/
def Instr.HasWords (i : Instr) (w w2 : Word) : Prop :=
  i.wellFormed = true ∧ i.firstWord = w ∧ (i.secondWord = none ∨ i.secondWord = some w2)

theorem Instr.HasWords.secondWord_eq {i : Instr} {w w2 : Word} (h : i.HasWords w w2) :
    i.secondWord = if isTwoWord w then some w2 else none := by
  obtain ⟨hwf, rfl, hsecond⟩ := h
  have hlen := isTwoWord_firstWord i hwf
  rcases hsecond with hsecond | hsecond <;> simp [hsecond, hlen]

/-- The row builds well-formed instructions with the words they are built from; a doubled word is its own row's. -/
def Row.Sound (row : Row) : Prop := ∀ w w2, inRow row.mask row.value w = true → w ∉ doubledWords →
  (row.build w w2).HasWords w w2

section
variable {v : Word} {i : Instr}

theorem Row.Sound.fixed (h : i.wellFormed = true ∧ i.firstWord = v ∧ i.secondWord = none) :
    Row.Sound ⟨0xFFFF, v, fun _ _ => i⟩ := by
  intro w w2 hw _
  rw [inRow_all_ones, beq_iff_eq] at hw
  exact ⟨h.1, h.2.1.trans hw.symm, .inl h.2.2⟩

/-- A row the source reserves or does not list carries the word. -/
theorem Row.Sound.word {m : Word} {mk : Word → Instr} (h : ∀ w, inRow m v w = true → (mk w).wellFormed = true)
    (hword : ∀ w, (mk w).firstWord = w ∧ (mk w).secondWord = none) : Row.Sound ⟨m, v, fun w _ => mk w⟩ :=
  fun w _ hw _ => ⟨h w hw, (hword w).1, .inl (hword w).2⟩

theorem Row.Sound.rdRr {mk : Reg → Reg → Instr} {op : BitVec 6}
    (h : ∀ d r, (mk d r).wellFormed = true ∧ (mk d r).firstWord = encRdRr op d r ∧ (mk d r).secondWord = none)
    (hv : v = op ++ 0#10) : Row.Sound ⟨0xFC00, v, fun w _ => mk (fieldD w) (fieldR w)⟩ := by
  subst hv
  intro w w2 hw _
  obtain ⟨hwf, hfirst, hsecond⟩ := h (fieldD w) (fieldR w)
  exact ⟨hwf, hfirst.trans (encRdRr_fields hw), .inl hsecond⟩

theorem Row.Sound.rdK {mk : Reg → Byte → Instr} {op : BitVec 4} (h : ∀ d k, highReg d = true →
      (mk d k).wellFormed = true ∧ (mk d k).firstWord = encRdK op d k ∧ (mk d k).secondWord = none)
    (hv : v = op ++ 0#12) : Row.Sound ⟨0xF000, v, fun w _ => mk (fieldD4 w) (fieldK8 w)⟩ := by
  subst hv
  intro w w2 hw _
  obtain ⟨hwf, hfirst, hsecond⟩ := h (fieldD4 w) (fieldK8 w) (highReg_fieldD4 w)
  exact ⟨hwf, hfirst.trans (encRdK_fields hw), .inl hsecond⟩

theorem Row.Sound.rd {mk : Reg → Instr} {op : BitVec 7} {low : BitVec 4}
    (h : ∀ d, (mk d).wellFormed = true ∧ (mk d).firstWord = encRd op d low ∧ (mk d).secondWord = none)
    (hv : v = op ++ 0#5 ++ low) : Row.Sound ⟨0xFE0F, v, fun w _ => mk (fieldD w)⟩ := by
  subst hv
  intro w w2 hw _
  obtain ⟨hwf, hfirst, hsecond⟩ := h (fieldD w)
  exact ⟨hwf, hfirst.trans (encRd_fields hw), .inl hsecond⟩

/-- LDS and STS. -/
theorem Row.Sound.rdLong {mk : Reg → Word → Instr} {op : BitVec 7} {low : BitVec 4}
    (h : ∀ d k, (mk d k).wellFormed = true ∧ (mk d k).firstWord = encRd op d low ∧ (mk d k).secondWord = some k)
    (hv : v = op ++ 0#5 ++ low) : Row.Sound ⟨0xFE0F, v, fun w w2 => mk (fieldD w) w2⟩ := by
  subst hv
  intro w w2 hw _
  obtain ⟨hwf, hfirst, hsecond⟩ := h (fieldD w) w2
  exact ⟨hwf, hfirst.trans (encRd_fields hw), .inr hsecond⟩

theorem Row.Sound.mul3 {mk : Reg → Reg → Instr} {hi lo : BitVec 1} (h : ∀ d r, mulReg d = true → mulReg r = true →
      (mk d r).wellFormed = true ∧ (mk d r).firstWord = encMul3 hi lo d r ∧ (mk d r).secondWord = none)
    (hv : v = 0b00000011#8 ++ hi ++ 0#3 ++ lo ++ 0#3) :
    Row.Sound ⟨0xFF88, v, fun w _ => mk (fieldD3 w) (fieldR3 w)⟩ := by
  subst hv
  intro w w2 hw _
  obtain ⟨hwf, hfirst, hsecond⟩ := h (fieldD3 w) (fieldR3 w) (mulReg_fieldD3 w) (mulReg_fieldR3 w)
  exact ⟨hwf, hfirst.trans (encMul3_fields hw), .inl hsecond⟩

theorem Row.Sound.ldd {mk : Reg → BitVec 6 → Instr} {s y : BitVec 1}
    (h : ∀ d q, (mk d q).wellFormed = true ∧ (mk d q).firstWord = encLdd s y d q ∧ (mk d q).secondWord = none)
    (hv : v = 0b100000#6 ++ s ++ 0#5 ++ y ++ 0#3) : Row.Sound ⟨0xD208, v, fun w _ => mk (fieldD w) (fieldQ w)⟩ := by
  subst hv
  intro w w2 hw _
  obtain ⟨hwf, hfirst, hsecond⟩ := h (fieldD w) (fieldQ w)
  exact ⟨hwf, hfirst.trans (encLdd_fields hw), .inl hsecond⟩

theorem Row.Sound.tiny {mk : Reg → Byte → Instr} {op : BitVec 5} (h : ∀ d a, highReg d = true → tinyAddr a = true →
      (mk d a).wellFormed = true ∧ (mk d a).firstWord = encTiny op d a ∧ (mk d a).secondWord = none)
    (hv : v = op ++ 0#11) : Row.Sound ⟨0xF800, v, fun w _ => mk (fieldD4 w) (fieldTinyAddr w)⟩ := by
  subst hv
  intro w w2 hw _
  obtain ⟨hwf, hfirst, hsecond⟩ := h _ _ (highReg_fieldD4 w) (tinyAddr_fieldTinyAddr w)
  exact ⟨hwf, hfirst.trans (encTiny_fields hw), .inl hsecond⟩

/-- The formats of one or two instructions. -/
theorem Row.Sound.of_fields {m v' : Word} {build : Word → Instr} (hwf : ∀ w, (build w).wellFormed = true)
    (hfirst : ∀ w, inRow m v' w = true → (build w).firstWord = w) (hsecond : ∀ w, (build w).secondWord = none)
    (hv : v = v') : Row.Sound ⟨m, v, fun w _ => build w⟩ := by
  subst hv
  exact fun w _ hw _ => ⟨hwf w, hfirst w hw, .inl (hsecond w)⟩

end

/-- A word that is not NOP's is a well-formed word of the unlisted row around it. -/
theorem Row.Sound.unlisted0000 : Row.Sound ⟨0xFF00, 0x0000, fun w _ => .unlisted0000 w⟩ := by
  intro w w2 hw hd
  have hne : w ≠ 0x0000 := fun h => hd (h ▸ by decide)
  exact ⟨Bool.and_eq_true_iff.2 ⟨hw, bne_iff_ne.2 hne⟩, rfl, .inl rfl⟩

/-- The words that the mask of `Instr.wellFormed` leaves out of the unlisted row around IJMP are the doubled ones. -/
theorem mem_doubledWords_of_and {w : Word} (h : w &&& 0xFEEF = 0x9409) : w ∈ doubledWords := by
  have hsplit : w = (w &&& 0xFEEF) ||| (w &&& 0x0110) := by
    rw [← BitVec.and_or_distrib_left]
    exact BitVec.and_allOnes.symm
  have hfree : w &&& 0x0110 = 0#7 ++ w.extractLsb' 8 1 ++ 0#3 ++ w.extractLsb' 4 1 ++ 0#4 := by
    refine BitVec.eq_of_getLsbD_eq fun j hj => ?_
    simp only [BitVec.getLsbD_and, BitVec.getLsbD_append, BitVec.getLsbD_extractLsb']
    interval_cases j <;> simp
  rw [hsplit, h, hfree]
  generalize w.extractLsb' 8 1 = x, w.extractLsb' 4 1 = y
  revert x y; decide

/-- A word that no indirect jump or call has is a well-formed word of the unlisted row around them. -/
theorem Row.Sound.unlisted94x9 : Row.Sound ⟨0xFE0F, 0x9409, fun w _ => .unlisted94x9 w⟩ := fun _ _ hw hd =>
  ⟨Bool.and_eq_true_iff.2 ⟨hw, bne_iff_ne.2 fun h => hd (mem_doubledWords_of_and h)⟩, rfl, .inl rfl⟩

/-- JMP and CALL. -/
theorem Row.Sound.long {mk : BitVec 22 → Instr} {v : Word} {op : BitVec 7} {low : BitVec 3}
    (h : ∀ k, (mk k).wellFormed = true ∧ (mk k).firstWord = op ++ k.extractLsb' 17 5 ++ low ++ k.extractLsb' 16 1 ∧
      (mk k).secondWord = some (k.extractLsb' 0 16))
    (hv : v = op ++ 0#5 ++ low ++ 0#1) : Row.Sound ⟨0xFE0E, v, fun w w2 => mk (fieldK22 w w2)⟩ := by
  subst hv
  intro w w2 hw _
  obtain ⟨hwf, hfirst, hsecond⟩ := h (fieldK22 w w2)
  exact ⟨hwf, hfirst.trans (longWord_fields hw), .inr (hsecond.trans (congrArg some fieldK22_low))⟩

theorem sound_rowsTwoRegister : ∀ row ∈ rowsTwoRegister, row.Sound := by
  simp only [rowsTwoRegister, List.forall_mem_cons]
  have hpairs (w : Word) := Bool.and_eq_true_iff.2 ⟨evenReg_fieldPairD w, evenReg_fieldPairR w⟩
  have hhigh (w : Word) := Bool.and_eq_true_iff.2 ⟨highReg_fieldD4 w, highReg_fieldR4 w⟩
  refine ⟨.fixed ⟨rfl, rfl, rfl⟩, .unlisted0000, .of_fields hpairs (fun _ => movwWord_fields) (fun _ => rfl) rfl,
    .of_fields hhigh (fun _ => mulsWord_fields) (fun _ => rfl) rfl, ?mulsu, ?fmul, ?fmuls, ?fmulsu,
    ?_, ?_, ?_, ?_, ?_, ?_, ?_, ?_, ?_, ?_, ?_, List.forall_mem_nil _⟩
  case mulsu | fmul | fmuls | fmulsu => exact .mul3 (fun _ _ hd hr => ⟨Bool.and_eq_true_iff.2 ⟨hd, hr⟩, rfl, rfl⟩) rfl
  all_goals exact .rdRr (fun _ _ => ⟨rfl, rfl, rfl⟩) rfl

theorem sound_rowsImmediate : ∀ row ∈ rowsImmediate, row.Sound := by
  simp only [rowsImmediate, List.forall_mem_cons]
  refine ⟨?_, ?_, ?_, ?_, ?_, List.forall_mem_nil _⟩
  all_goals exact .rdK (fun _ _ hd => ⟨hd, rfl, rfl⟩) rfl

theorem sound_rowsDisplacement : ∀ row ∈ rowsDisplacement, row.Sound := by
  simp only [rowsDisplacement, List.forall_mem_cons]
  refine ⟨?_, ?_, ?_, ?_, List.forall_mem_nil _⟩
  all_goals exact .ldd (fun _ _ => ⟨rfl, rfl, rfl⟩) rfl

theorem sound_rowsLoad : ∀ row ∈ rowsLoad, row.Sound := by
  simp only [rowsLoad, List.forall_mem_cons]
  refine ⟨.rdLong (fun _ _ => ⟨rfl, rfl, rfl⟩) rfl, ?_, ?_, ?word3, ?_, ?_, ?_, ?_, ?word8, ?_, ?_, ?wordB, ?_, ?_,
    ?_, ?_, List.forall_mem_nil _⟩
  case word3 | word8 | wordB => exact .word (fun _ => id) fun _ => ⟨rfl, rfl⟩
  all_goals exact .rd (fun _ => ⟨rfl, rfl, rfl⟩) rfl

theorem sound_rowsStore : ∀ row ∈ rowsStore, row.Sound := by
  simp only [rowsStore, List.forall_mem_cons]
  refine ⟨.rdLong (fun _ _ => ⟨rfl, rfl, rfl⟩) rfl, ?_, ?_, ?word3, ?_, ?_, ?_, ?_, ?word8, ?_, ?_, ?wordB, ?_, ?_,
    ?_, ?_, List.forall_mem_nil _⟩
  case word3 | word8 | wordB => exact .word (fun _ => id) fun _ => ⟨rfl, rfl⟩
  all_goals exact .rd (fun _ => ⟨rfl, rfl, rfl⟩) rfl

theorem sound_rowsOneOperand : ∀ row ∈ rowsOneOperand, row.Sound := by
  simp only [rowsOneOperand, List.forall_mem_cons]
  refine ⟨?com, ?neg, ?swap, ?inc, ?word4, ?asr, ?lsr, ?ror, ?bset, ?bclr, ?_, ?_, ?word28, ?word48, ?_,
    ?_, ?_, ?wordB8, ?_, ?_, ?_, ?_, ?_, ?_, ?_, ?_, .unlisted94x9, ?dec, .of_fields (fun _ => rfl)
      (fun _ => roundWord_fields) (fun _ => rfl) rfl, ?wordB, .long (fun _ => ⟨rfl, rfl, rfl⟩) rfl,
    .long (fun _ => ⟨rfl, rfl, rfl⟩) rfl, List.forall_mem_nil _⟩
  case com | neg | swap | inc | asr | lsr | ror | dec => exact .rd (fun _ => ⟨rfl, rfl, rfl⟩) rfl
  case bset | bclr => exact .of_fields (fun _ => rfl) (fun _ => statusBitWord_fields) (fun _ => rfl) rfl
  case word4 | word28 | word48 | wordB8 | wordB => exact .word (fun _ => id) fun _ => ⟨rfl, rfl⟩
  all_goals exact .fixed ⟨rfl, rfl, rfl⟩

theorem sound_rowsWordAndIo : ∀ row ∈ rowsWordAndIo, row.Sound := by
  simp only [rowsWordAndIo, List.forall_mem_cons]
  refine ⟨?adiw, ?sbiw, ?cbi, ?sbic, ?sbi, ?sbis, .rdRr (fun _ _ => ⟨rfl, rfl, rfl⟩) rfl, ?in_, ?out,
    List.forall_mem_nil _⟩
  case adiw | sbiw => exact .of_fields pairReg_fieldWordPair (fun _ => wordOpWord_fields) (fun _ => rfl) rfl
  case cbi | sbic | sbi | sbis => exact .of_fields (fun _ => rfl) (fun _ => ioBitWord_fields) (fun _ => rfl) rfl
  case in_ | out => exact .of_fields (fun _ => rfl) (fun _ => inOutWord_fields) (fun _ => rfl) rfl

theorem sound_rowsBranch : ∀ row ∈ rowsBranch, row.Sound := by
  simp only [rowsBranch, List.forall_mem_cons]
  refine ⟨?rjmp, ?rcall, .rdK (fun _ _ hd => ⟨hd, rfl, rfl⟩) rfl, ?brbs, ?brbc, ?bld, ?bst, ?sbrc, ?sbrs,
    .word (fun _ => id) fun _ => ⟨rfl, rfl⟩, List.forall_mem_nil _⟩
  case rjmp | rcall => exact .of_fields (fun _ => rfl) (fun _ => relativeWord_fields) (fun _ => rfl) rfl
  case brbs | brbc => exact .of_fields (fun _ => rfl) (fun _ => branchWord_fields) (fun _ => rfl) rfl
  case bld | bst | sbrc | sbrs => exact .of_fields (fun _ => rfl) (fun _ => regBitWord_fields) (fun _ => rfl) rfl

theorem sound_rowsTiny : ∀ row ∈ rowsTiny, row.Sound := by
  simp only [rowsTiny, List.forall_mem_cons]
  refine ⟨?_, ?_, List.forall_mem_nil _⟩
  all_goals exact .tiny (fun _ _ hd ha => ⟨Bool.and_eq_true_iff.2 ⟨hd, ha⟩, rfl, rfl⟩) rfl

theorem sound_opcodeTable : ∀ row ∈ opcodeTable, row.Sound := by
  simp only [opcodeTable, List.forall_mem_append]
  exact ⟨⟨⟨⟨⟨⟨⟨sound_rowsTwoRegister, sound_rowsImmediate⟩, sound_rowsDisplacement⟩, sound_rowsLoad⟩, sound_rowsStore⟩,
    sound_rowsOneOperand⟩, sound_rowsWordAndIo⟩, sound_rowsBranch⟩

end Sys2Proof

/-! PROOFS. Decode and encode agree, continued: from the instruction to its words, and both directions at once. -/

namespace Sys2Proof

open Machine Laws

/-! ## From the instruction to the word -/

/-- The row of the instruction's number holds its first word and builds it from its words. -/
def Instr.Encodes (i : Instr) : Prop :=
  ∃ row ∈ opcodeTable, inRow row.mask row.value i.firstWord = true ∧
    ∀ w2, i.secondWord = none ∨ i.secondWord = some w2 → row.build i.firstWord w2 = i

namespace Instr.Encodes

variable {m v v' : Word} {d r : Reg}

theorem of_row {i : Instr} {build : Word → Word → Instr} (hrow : opcodeTable[i.ctorIdx]? = some ⟨m, v, build⟩)
    (hw : inRow m v i.firstWord = true)
    (hbuild : ∀ w2, i.secondWord = none ∨ i.secondWord = some w2 → build i.firstWord w2 = i) : i.Encodes :=
  ⟨_, List.mem_of_getElem? hrow, hw, hbuild⟩

theorem fixed {i : Instr} (hrow : opcodeTable[i.ctorIdx]? = some ⟨0xFFFF, v, fun _ _ => i⟩) (hv : i.firstWord = v) :
    i.Encodes :=
  of_row hrow (by rw [inRow_all_ones, hv, beq_self_eq_true]) fun _ _ => rfl

theorem word {mk : Word → Instr} {w : Word} (hrow : opcodeTable[(mk w).ctorIdx]? = some ⟨m, v, fun w _ => mk w⟩)
    (hw : inRow m v w = true) (hfirst : (mk w).firstWord = w) : (mk w).Encodes :=
  of_row hrow (by rw [hfirst, hw]) fun _ _ => by rw [hfirst]

/-- A one-word instruction of a format: the format's word lies in the row, and its fields are the operands. -/
theorem of_fields {i : Instr} {w : Word} {build : Word → Instr}
    (hrow : opcodeTable[i.ctorIdx]? = some ⟨m, v, fun w _ => build w⟩) (hfirst : i.firstWord = w)
    (hw : inRow m v' w = true) (hbuild : build w = i) (hv : v = v') : i.Encodes := by
  subst hv hfirst
  exact of_row hrow hw fun _ _ => hbuild

theorem rdRr {mk : Reg → Reg → Instr} {op : BitVec 6}
    (hrow : opcodeTable[(mk d r).ctorIdx]? = some ⟨0xFC00, v, fun w _ => mk (fieldD w) (fieldR w)⟩)
    (hfirst : (mk d r).firstWord = encRdRr op d r) (hv : v = op ++ 0#10) : (mk d r).Encodes :=
  of_fields hrow hfirst (inRow_encRdRr ..) (by rw [fieldD_encRdRr, fieldR_encRdRr]) hv

theorem rdK {mk : Reg → Byte → Instr} {k : Byte} {op : BitVec 4} (hd : highReg d = true)
    (hrow : opcodeTable[(mk d k).ctorIdx]? = some ⟨0xF000, v, fun w _ => mk (fieldD4 w) (fieldK8 w)⟩)
    (hfirst : (mk d k).firstWord = encRdK op d k) (hv : v = op ++ 0#12) : (mk d k).Encodes :=
  of_fields hrow hfirst (inRow_encRdK ..) (by rw [fieldD4_encRdK _ _ _ hd, fieldK8_encRdK]) hv

theorem rd {mk : Reg → Instr} {op : BitVec 7} {low : BitVec 4}
    (hrow : opcodeTable[(mk d).ctorIdx]? = some ⟨0xFE0F, v, fun w _ => mk (fieldD w)⟩)
    (hfirst : (mk d).firstWord = encRd op d low) (hv : v = op ++ 0#5 ++ low) : (mk d).Encodes :=
  of_fields hrow hfirst (inRow_encRd ..) (by rw [fieldD_encRd]) hv

/-- LDS and STS. -/
theorem rdLong {mk : Reg → Word → Instr} {k : Word} {op : BitVec 7} {low : BitVec 4}
    (hrow : opcodeTable[(mk d k).ctorIdx]? = some ⟨0xFE0F, v, fun w w2 => mk (fieldD w) w2⟩)
    (hfirst : (mk d k).firstWord = encRd op d low) (hsecond : (mk d k).secondWord = some k)
    (hv : v = op ++ 0#5 ++ low) : (mk d k).Encodes := by
  subst hv
  refine of_row hrow (hfirst ▸ inRow_encRd ..) fun w2 h2 => ?_
  obtain rfl : k = w2 := by simpa [hsecond] using h2
  rw [hfirst, fieldD_encRd]

theorem mul3 {mk : Reg → Reg → Instr} {hi lo : BitVec 1} (h : (mulReg d && mulReg r) = true)
    (hrow : opcodeTable[(mk d r).ctorIdx]? = some ⟨0xFF88, v, fun w _ => mk (fieldD3 w) (fieldR3 w)⟩)
    (hfirst : (mk d r).firstWord = encMul3 hi lo d r) (hv : v = 0b00000011#8 ++ hi ++ 0#3 ++ lo ++ 0#3) :
    (mk d r).Encodes := by
  obtain ⟨hd, hr⟩ := Bool.and_eq_true_iff.1 h
  exact of_fields hrow hfirst (inRow_encMul3 ..) (by rw [fieldD3_encMul3 _ _ _ _ hd, fieldR3_encMul3 _ _ _ _ hr]) hv

theorem ldd {mk : Reg → BitVec 6 → Instr} {q : BitVec 6} {s y : BitVec 1}
    (hrow : opcodeTable[(mk d q).ctorIdx]? = some ⟨0xD208, v, fun w _ => mk (fieldD w) (fieldQ w)⟩)
    (hfirst : (mk d q).firstWord = encLdd s y d q) (hv : v = 0b100000#6 ++ s ++ 0#5 ++ y ++ 0#3) : (mk d q).Encodes :=
  of_fields hrow hfirst (inRow_encLdd ..) (by rw [fieldD_encLdd, fieldQ_encLdd]) hv

/-- JMP and CALL. -/
theorem long {mk : BitVec 22 → Instr} {k : BitVec 22} {op : BitVec 7} {low : BitVec 3}
    (hrow : opcodeTable[(mk k).ctorIdx]? = some ⟨0xFE0E, v, fun w w2 => mk (fieldK22 w w2)⟩)
    (hfirst : (mk k).firstWord = op ++ k.extractLsb' 17 5 ++ low ++ k.extractLsb' 16 1)
    (hsecond : (mk k).secondWord = some (k.extractLsb' 0 16)) (hv : v = op ++ 0#5 ++ low ++ 0#1) : (mk k).Encodes := by
  subst hv
  refine of_row hrow (hfirst ▸ inRow_longWord ..) fun w2 h2 => ?_
  obtain rfl : k.extractLsb' 0 16 = w2 := by simpa [hsecond] using h2
  rw [hfirst, fieldK22_longWord]

end Instr.Encodes

/-- Every well-formed instruction but the one-word LDS and STS is what its row of the table builds. -/
theorem Instr.encodes {i : Instr} (h : i.wellFormed = true) (htiny : i.isTinyForm = false) : i.Encodes := by
  cases i with
  | ldsTiny | stsTiny => cases htiny
  | nop | ret | reti | sleep | break_ | wdr | lpm | elpm | spm | spmZinc | ijmp | eijmp | icall | eicall =>
    exact .fixed rfl rfl
  | unlisted0000 | unlisted94x9 => exact .word rfl (Bool.and_eq_true_iff.1 h).1 rfl
  | unlistedLd0011 | unlistedLd1000 | unlistedLd1011 | unlistedSt0011 | unlistedSt1000 | unlistedSt1011 | reserved9404
  | reserved9528 | reserved9548 | reserved95b8 | unlisted95xB | reservedF808 => exact .word rfl h rfl
  | cpc | sbc | add | cpse | cp | sub | adc | and | eor | or | mov | mul => exact .rdRr rfl rfl rfl
  | cpi | sbci | subi | ori | andi | ldi => exact .rdK h rfl rfl rfl
  | ldZinc | ldZdec | lpmRdZ | lpmRdZinc | elpmRdZ | elpmRdZinc | ldYinc | ldYdec | ldX | ldXinc | ldXdec | pop
  | stZinc | stZdec | xch | las | lac | lat | stYinc | stYdec | stX | stXinc | stXdec | push
  | com | neg | swap | inc | asr | lsr | ror | dec => exact .rd rfl rfl rfl
  | lds | sts => exact .rdLong rfl rfl rfl rfl
  | jmp | call => exact .long rfl rfl rfl rfl
  | mulsu | fmul | fmuls | fmulsu => exact .mul3 h rfl rfl rfl
  | lddZ | lddY | stdZ | stdY => exact .ldd rfl rfl rfl
  | movw d r =>
    obtain ⟨hd, hr⟩ := Bool.and_eq_true_iff.1 h
    exact .of_fields rfl rfl (inRow_movwWord ..)
      (congrArg₂ Instr.movw (fieldPairD_movwWord _ _ _ hd) (fieldPairR_movwWord _ _ _ hr)) rfl
  | muls d r =>
    obtain ⟨hd, hr⟩ := Bool.and_eq_true_iff.1 h
    exact .of_fields rfl rfl (inRow_mulsWord ..)
      (congrArg₂ Instr.muls (fieldD4_mulsWord _ _ _ hd) (fieldR4_mulsWord _ _ _ hr)) rfl
  | bset | bclr => exact .of_fields rfl rfl (inRow_statusBitWord ..) (congrArg _ (fieldS_statusBitWord ..)) rfl
  | des => exact .of_fields rfl rfl (inRow_roundWord ..) (congrArg _ (fieldRound_roundWord ..)) rfl
  | adiw | sbiw =>
    exact .of_fields rfl rfl (inRow_wordOpWord ..)
      (congrArg₂ _ (fieldWordPair_wordOpWord _ _ _ h) (fieldK6_wordOpWord ..)) rfl
  | cbi | sbic | sbi | sbis =>
    exact .of_fields rfl rfl (inRow_ioBitWord ..) (congrArg₂ _ (fieldA5_ioBitWord ..) (fieldB_ioBitWord ..)) rfl
  | in_ | out =>
    exact .of_fields rfl rfl (inRow_inOutWord ..) (congrArg₂ _ (fieldD_inOutWord ..) (fieldA6_inOutWord ..)) rfl
  | rjmp | rcall => exact .of_fields rfl rfl (inRow_relativeWord ..) (congrArg _ (fieldK12_relativeWord ..)) rfl
  | brbs | brbc =>
    exact .of_fields rfl rfl (inRow_branchWord ..) (congrArg₂ _ (fieldB_branchWord ..) (fieldK7_branchWord ..)) rfl
  | bld | bst | sbrc | sbrs =>
    exact .of_fields rfl rfl (inRow_regBitWord ..) (congrArg₂ _ (fieldD_regBitWord ..) (fieldB_regBitWord ..)) rfl

/-! ## The row that decodes a word -/

/-- The rows of a doubled word: its own, which is found first, and the unlisted row, which builds nothing well-formed of
it. -/
theorem decodeWords_doubled {row : Row} {w w2 : Word} (hw : w ∈ doubledWords)
    (hrow : row ∈ opcodeTable.filter fun r => inRow r.mask r.value w) (hwf : (row.build w w2).wellFormed = true) :
    decodeWords false w w2 = .ok (row.build w w2) := by
  simp only [doubledWords, List.mem_cons, List.not_mem_nil, or_false] at hw
  have hpair : ∃ i u, (opcodeTable.filter fun r => inRow r.mask r.value w) = [⟨0xFFFF, w, fun _ _ => i⟩, u] ∧
      decodeWords false w w2 = .ok i ∧ (u.build w w2).wellFormed = false := by
    obtain rfl | rfl | rfl | rfl | rfl := hw <;> exact ⟨_, _, rfl, rfl, rfl⟩
  obtain ⟨i, u, hrows, hdecode, hu⟩ := hpair
  rw [hrows] at hrow
  obtain rfl | hrow := List.mem_cons.1 hrow
  · exact hdecode
  · obtain rfl := List.mem_singleton.1 hrow
    rw [hu] at hwf
    cases hwf

/-- A row of the table that holds a word and builds something well-formed of it is the row that decodes it. -/
theorem decodeWords_of_mem {row : Row} {w w2 : Word} (hrow : row ∈ opcodeTable)
    (hw : inRow row.mask row.value w = true) (hwf : (row.build w w2).wellFormed = true) :
    decodeWords false w w2 = .ok (row.build w w2) := by
  have hmem := List.mem_filter (p := fun r : Row => inRow r.mask r.value w).2 ⟨hrow, hw⟩
  by_cases hd : w ∈ doubledWords
  · exact decodeWords_doubled hd hmem hwf
  · have hone : (opcodeTable.filter fun r => inRow r.mask r.value w).length = 1 := by
      rw [oneRowPerWord w]
      exact if_neg hd
    obtain ⟨r, hr⟩ := List.length_eq_one_iff.1 hone
    obtain rfl : row = r := List.mem_singleton.1 (hr ▸ hmem)
    have hfind : (rowsOf false).find? (fun r => inRow r.mask r.value w) = some row := by
      rw [← List.head?_filter]
      exact congrArg List.head? hr
    rw [decodeWords, hfind]

/-- The words of the one-word LDS and STS (30_encoding.md R123) are those with bits 15:12 = 1010. -/
theorem top_of_inRow_tiny {row : Row} {w : Word} (hrow : row ∈ rowsTiny) (hw : inRow row.mask row.value w = true) :
    w.extractLsb' 12 4 = 0b1010#4 := by
  have hrows : ∀ row ∈ rowsTiny,
      row.mask.extractLsb' 12 4 = BitVec.allOnes 4 ∧ row.value.extractLsb' 12 4 = 0b1010#4 := by decide
  obtain ⟨hmask, hvalue⟩ := hrows row hrow
  rw [← hvalue, ← beq_iff_eq.1 hw, BitVec.extractLsb'_and, hmask, BitVec.and_allOnes]

theorem exists_row_tiny {w : Word} (h : w.extractLsb' 12 4 = 0b1010#4) :
    ∃ row ∈ rowsTiny, inRow row.mask row.value w = true := by
  have hbits : w &&& 0xF800 = w.extractLsb' 12 4 ++ w.extractLsb' 11 1 ++ 0#11 := by
    refine BitVec.eq_of_getLsbD_eq fun j hj => ?_
    simp only [BitVec.getLsbD_and, BitVec.getLsbD_append, BitVec.getLsbD_extractLsb']
    interval_cases j <;> simp
  simp only [rowsTiny, List.exists_mem_cons_iff, inRow, hbits, h, List.not_mem_nil, false_and, exists_false, or_false]
  generalize w.extractLsb' 11 1 = x
  revert x; decide

theorem decodeWords_rowsTiny {row : Row} {w : Word} (hrow : row ∈ rowsTiny) (hw : inRow row.mask row.value w = true)
    (w2 : Word) : decodeWords true w w2 = .ok (row.build w w2) := by
  have hfind : (rowsOf true).find? (fun r => inRow r.mask r.value w) = some row := by
    simp only [rowsTiny, List.mem_cons, List.not_mem_nil, or_false] at hrow
    obtain rfl | rfl := hrow
    · exact List.find?_cons_of_pos hw
    · have hfirst : inRow 0xF800 0xA000 w = false := row_apart _ _ hw (by decide)
      rw [rowsOf, if_pos rfl, rowsTiny, List.cons_append, 
        List.find?_cons_of_neg (p := fun r : Row => inRow r.mask r.value w) (Bool.eq_false_iff.1 hfirst)]
      exact List.find?_cons_of_pos hw
  rw [decodeWords, hfind]

theorem decodeWords_true_of_ne {w : Word} (h : w.extractLsb' 12 4 ≠ 0b1010#4) (w2 : Word) :
    decodeWords true w w2 = decodeWords false w w2 := by
  have hnone : rowsTiny.find? (fun r => inRow r.mask r.value w) = none :=
    List.find?_eq_none.2 fun row hrow hw => h (top_of_inRow_tiny hrow hw)
  rw [decodeWords, rowsOf, if_pos rfl, List.find?_append, hnone, Option.none_or]
  rfl

/-! ## Both directions -/

/-- A doubled word is the word of a well-formed instruction: NOP, an indirect jump or an indirect call. -/
theorem exists_decode_doubled {w : Word} (hw : w ∈ doubledWords) (w2 : Word) :
    ∃ i, decodeWords false w w2 = .ok i ∧ i.HasWords w w2 := by
  simp only [doubledWords, List.mem_cons, List.not_mem_nil, or_false] at hw
  obtain rfl | rfl | rfl | rfl | rfl := hw <;> exact ⟨_, rfl, rfl, rfl, .inl rfl⟩

theorem exists_decode (w w2 : Word) : ∃ i, decodeWords false w w2 = .ok i ∧ i.HasWords w w2 := by
  by_cases hd : w ∈ doubledWords
  · exact exists_decode_doubled hd w2
  · have hlen : 0 < (opcodeTable.filter fun r => inRow r.mask r.value w).length := by
      rw [oneRowPerWord w]
      split <;> decide
    obtain ⟨row, hmem⟩ := List.exists_mem_of_length_pos hlen
    obtain ⟨hrow, hw⟩ := List.mem_filter.1 hmem
    have hwords := sound_opcodeTable row hrow w w2 hw hd
    exact ⟨_, decodeWords_of_mem hrow hw hwords.1, hwords⟩

theorem exists_decode_true (w w2 : Word) : ∃ i, decodeWords true w w2 = .ok i ∧ i.HasWords w w2 := by
  by_cases htop : w.extractLsb' 12 4 = 0b1010#4
  · obtain ⟨row, hrow, hw⟩ := exists_row_tiny htop
    have hd : w ∉ doubledWords := by
      simp only [doubledWords, List.mem_cons, List.not_mem_nil, or_false]
      rintro (rfl | rfl | rfl | rfl | rfl) <;> exact absurd htop (by decide)
    exact ⟨_, decodeWords_rowsTiny hrow hw w2, sound_rowsTiny row hrow w w2 hw hd⟩
  · rw [decodeWords_true_of_ne htop]
    exact exists_decode w w2

/-- Settles O3: a row holds the word, and what it builds has the word. -/
theorem everyWordDecodes : Obligations.EveryWordDecodes := by
  intro tiny w w2
  have hdecode : ∃ i, decodeWords tiny w w2 = .ok i ∧ i.HasWords w w2 := by
    cases tiny with
    | false => exact exists_decode w w2
    | true => exact exists_decode_true w w2
  obtain ⟨i, hi, hwords⟩ := hdecode
  exact ⟨i, hi, hwords.1, hwords.2.1, hwords.secondWord_eq⟩

theorem highByte_append_lowByte (w : Word) : highByte w ++ lowByte w = w := by
  refine BitVec.eq_of_getLsbD_eq fun j hj => ?_
  simp only [highByte, lowByte, BitVec.getLsbD_append, BitVec.getLsbD_extractLsb']
  interval_cases j <;> simp

/-- The bytes of an instruction decode to it where its words do. -/
theorem decodeBytes_encode {tiny : Bool} {i : Instr} (hwf : i.wellFormed = true)
    (h : ∀ w2, i.secondWord = none ∨ i.secondWord = some w2 → decodeWords tiny i.firstWord w2 = .ok i)
    (rest : List Byte) : decodeBytes tiny (bytesOf (encode i) ++ rest) = .ok (i, rest) := by
  have hlen : isTwoWord i.firstWord = i.secondWord.isSome := isTwoWord_firstWord i hwf
  cases hsecond : i.secondWord with
  | none =>
    have hbytes : bytesOf (encode i) ++ rest = lowByte i.firstWord :: highByte i.firstWord :: rest := by
      simp [bytesOf, encode, hsecond]
    rw [hbytes]
    unfold decodeBytes
    dsimp only
    rw [highByte_append_lowByte, hlen, hsecond, h 0 (.inl hsecond)]
    rfl
  | some w2 =>
    have hbytes : bytesOf (encode i) ++ rest =
        lowByte i.firstWord :: highByte i.firstWord :: lowByte w2 :: highByte w2 :: rest := by
      simp [bytesOf, encode, hsecond]
    rw [hbytes, decodeBytes, highByte_append_lowByte, highByte_append_lowByte, hlen, hsecond, h w2 (.inr hsecond)]
    rfl

theorem decodeWords_firstWord {i : Instr} (hwf : i.wellFormed = true) (htiny : i.isTinyForm = false) (w2 : Word)
    (h2 : i.secondWord = none ∨ i.secondWord = some w2) : decodeWords false i.firstWord w2 = .ok i := by
  obtain ⟨row, hrow, hw, hbuild⟩ := Instr.encodes hwf htiny
  have hi := hbuild w2 h2
  rw [decodeWords_of_mem hrow hw (hi.symm ▸ hwf), hi]

/-- The one-word LDS and STS, on AVRtiny. -/
theorem decodeWords_tinyForm {i : Instr} (hwf : i.wellFormed = true) (htiny : i.isTinyForm = true) (w2 : Word) :
    decodeWords true i.firstWord w2 = .ok i := by
  cases i with
  | ldsTiny d a =>
    obtain ⟨hd, ha⟩ := Bool.and_eq_true_iff.1 hwf
    rw [decodeWords_rowsTiny (row := ⟨0xF800, 0xA000, fun w _ => .ldsTiny (fieldD4 w) (fieldTinyAddr w)⟩)
      (List.mem_cons_self ..) (inRow_encTiny ..)]
    exact congrArg Except.ok (congrArg₂ _ (fieldD4_encTiny _ _ _ hd) (fieldTinyAddr_encTiny _ _ _ ha))
  | stsTiny d a =>
    obtain ⟨hd, ha⟩ := Bool.and_eq_true_iff.1 hwf
    rw [decodeWords_rowsTiny (row := ⟨0xF800, 0xA800, fun w _ => .stsTiny (fieldD4 w) (fieldTinyAddr w)⟩)
      (List.mem_cons_of_mem _ (List.mem_cons_self ..)) (inRow_encTiny ..)]
    exact congrArg Except.ok (congrArg₂ _ (fieldD4_encTiny _ _ _ hd) (fieldTinyAddr_encTiny _ _ _ ha))
  | _ => cases htiny

/-- Settles O2: the row of the instruction builds it, and is the row that decodes its word. -/
theorem decodeInvertsEncode : Obligations.DecodeInvertsEncode := by
  refine ⟨fun i rest hwf htiny => decodeBytes_encode hwf (decodeWords_firstWord hwf htiny) rest,
    fun i rest hwf h => decodeBytes_encode hwf (fun w2 h2 => ?_) rest⟩
  cases htiny : i.isTinyForm with
  | true => exact decodeWords_tinyForm hwf htiny w2
  | false =>
    have htop := h.resolve_left (by simp [htiny])
    rw [decodeWords_true_of_ne htop, decodeWords_firstWord hwf htiny w2 h2]

/-- Settles O1: each of the ten words is looked up in the table. -/
theorem sampleWordsDecode : Obligations.SampleWordsDecode :=
  ⟨rfl, rfl, rfl, rfl, rfl, rfl, rfl, rfl, rfl, rfl⟩

end Sys2Proof

/-! PROOFS. The step of 30_encoding.md R150 piece by piece: the boundary, the fetch and its stops, the words that are no
instruction, sleep, and the interrupt entry of 60_exceptions.md R392. -/

namespace Sys2Proof.Machine

open Laws

/-! ## Decoding a first word, whatever follows -/

/-- Whether a variant has the instruction a row builds does not depend on the second word. -/
theorem presentOn_build (tiny : Bool) : ∀ row ∈ rowsOf tiny, ∀ (c : Cfg) (w w2 w2' : Word),
    (row.build w w2).presentOn c = (row.build w w2').presentOn c := by
  have htable : ∀ row ∈ rowsTiny ++ opcodeTable, ∀ (c : Cfg) (w w2 w2' : Word),
      (row.build w w2).presentOn c = (row.build w w2').presentOn c := by
    simp only [opcodeTable, rowsTwoRegister, rowsImmediate, rowsDisplacement, rowsLoad, rowsStore, rowsOneOperand,
      rowsWordAndIo, rowsBranch, rowsTiny, List.cons_append, List.nil_append, List.forall_mem_cons,
      List.not_mem_nil, implies_true, false_implies, and_true, true_and]
    exact ⟨fun _ _ _ _ => rfl, fun _ _ _ _ => rfl, fun _ _ _ _ => rfl, fun _ _ _ _ => rfl⟩
  cases tiny with
  | false => exact fun row hrow => htable row (List.mem_append_right _ hrow)
  | true => exact htable

section
variable {tiny : Bool} {w w2 w2' : Word} {i i' : Instr}

theorem decodeWords_of_row_found (h : decodeWords tiny w w2 = .ok i) :
    ∃ row ∈ rowsOf tiny, inRow row.mask row.value w = true ∧
      ∀ w2, decodeWords tiny w w2 = .ok (row.build w w2) := by
  cases hfind : (rowsOf tiny).find? fun row => inRow row.mask row.value w with
  | none => rw [decodeWords, hfind] at h; cases h
  | some row =>
    have hrow : inRow row.mask row.value w = true := by simpa using List.find?_some hfind
    exact ⟨row, List.mem_of_find?_eq_some hfind, hrow, fun w2 => by rw [decodeWords, hfind]⟩

/-- The first word alone says whether the variant has the instruction. -/
theorem presentOn_of_decode (h : decodeWords tiny w w2 = .ok i) (h' : decodeWords tiny w w2' = .ok i') (c : Cfg) :
    i'.presentOn c = i.presentOn c := by
  obtain ⟨row, hrow, -, hbuild⟩ := decodeWords_of_row_found h
  obtain rfl := Except.ok.inj ((hbuild w2).symm.trans h)
  obtain rfl := Except.ok.inj ((hbuild w2').symm.trans h')
  exact presentOn_build tiny row hrow c w w2' w2

/-- A row whose instruction depends on the second word holds two-word patterns only. -/
theorem build_eq_or_isTwoWord (tiny : Bool) : ∀ row ∈ rowsOf tiny,
    (∀ w w2 w2' : Word, row.build w w2 = row.build w w2') ∨
      ∀ w : Word, inRow row.mask row.value w = true → isTwoWord w = true := by
  have htable : ∀ row ∈ rowsTiny ++ opcodeTable, (∀ w w2 w2' : Word, row.build w w2 = row.build w w2') ∨
      ∀ w : Word, inRow row.mask row.value w = true → isTwoWord w = true := by
    simp only [opcodeTable, rowsTwoRegister, rowsImmediate, rowsDisplacement, rowsLoad, rowsStore, rowsOneOperand,
      rowsWordAndIo, rowsBranch, rowsTiny, List.cons_append, List.nil_append, List.forall_mem_cons,
      List.not_mem_nil, implies_true, false_implies, and_true, true_and, true_or, isTwoWord, inRow, Bool.or_eq_true]
    exact ⟨.inr fun _ h => .inl (.inl (.inl h)), .inr fun _ h => .inl (.inl (.inr h)), .inr fun _ h => .inl (.inr h),
      .inr fun _ h => .inr h⟩
  cases tiny with
  | false => exact fun row hrow => htable row (List.mem_append_right _ hrow)
  | true => exact htable

/-- A one-word instruction is decoded from its word, whatever follows. -/
theorem decodeWords_of_oneWord (h : decodeWords tiny w w2 = .ok i) (hone : isTwoWord w = false) (w2' : Word) :
    decodeWords tiny w w2' = .ok i := by
  obtain ⟨row, hrow, hw, hbuild⟩ := decodeWords_of_row_found h
  obtain heq | htwo := build_eq_or_isTwoWord tiny row hrow
  · rw [hbuild, heq w w2' w2, ← hbuild, h]
  · simp [htwo w hw] at hone

end

end Sys2Proof.Machine

/-! PROOFS. One step (30_encoding.md R150): the fetch and its stops, the words that are no instruction, sleep, and the
interrupt entry of 60_exceptions.md R392. -/

namespace Sys2Proof.Machine

open Laws

/-! ## The fetch -/

section
variable {s t : State} {w w2 : Word} {i : Instr} {f : Fault}

theorem State.progWord_congr (hcfg : t.cfg = s.cfg) (hpm : t.pm = s.pm) (wa : ProgAddr) :
    t.progWord wa = s.progWord wa := by
  simp only [State.progWord, State.pmByte, hcfg, hpm]

/-- A fetch looks at the variant, the pc and program memory only. -/
theorem State.fetch_congr (hcfg : t.cfg = s.cfg) (hpc : t.pc = s.pc) (hpm : t.pm = s.pm) : t.fetch = s.fetch := by
  simp only [State.fetch, State.pcPlus, State.progWord_congr hcfg hpm, hcfg, hpc]

theorem State.fetch_of_no_word (h : s.progWord s.pc = .error f) : s.fetch = .error f := by
  rw [State.fetch, h]
  rfl

theorem State.fetch_of_absent (hw : s.progWord s.pc = .ok w) (hi : decodeWords s.cfg.isTiny w w2 = .ok i)
    (hpresent : i.presentOn s.cfg = false) : s.fetch = .error (.reservedInstruction w) := by
  obtain ⟨j, hj, -⟩ := everyWordDecodes s.cfg.isTiny w 0
  have habsent : j.presentOn s.cfg = false := (presentOn_of_decode hi hj _).trans hpresent
  simp only [State.fetch, hw, bind, Except.bind, hj, habsent]
  rfl

/-- Once the first word is that of an instruction the variant has, only the second word can stop the fetch. -/
theorem State.fetch_of_present (hw : s.progWord s.pc = .ok w) (hi : decodeWords s.cfg.isTiny w w2 = .ok i)
    (hpresent : i.presentOn s.cfg = true) :
    (isTwoWord w = false → s.fetch = .ok i) ∧
    (isTwoWord w = true → s.progWord (s.pcPlus 1) = .ok w2 → s.fetch = .ok i) ∧
    (isTwoWord w = true → s.progWord (s.pcPlus 1) = .error f → s.fetch = .error f) := by
  obtain ⟨j, hj, -⟩ := everyWordDecodes s.cfg.isTiny w 0
  have hjpresent : j.presentOn s.cfg = true := (presentOn_of_decode hi hj _).trans hpresent
  refine ⟨fun hone => ?_, fun htwo h2 => ?_, fun htwo h2 => ?_⟩
  · obtain rfl := Except.ok.inj ((decodeWords_of_oneWord hi hone 0).symm.trans hj)
    simp only [State.fetch, hw, bind, Except.bind, hj, hjpresent, hone]
    rfl
  · simp only [State.fetch, hw, bind, Except.bind, hj, hjpresent, htwo, h2, hi]
    rfl
  · simp only [State.fetch, hw, bind, Except.bind, hj, hjpresent, htwo, h2]
    rfl

theorem runInstruction_of_fetch (h : s.fetch = .ok i) : runInstruction s = exec i (s.setIrqInhibit false) := by
  have hfetch : (s.setIrqInhibit false).fetch = s.fetch := State.fetch_congr rfl rfl rfl
  rw [runInstruction, hfetch, h]

theorem runInstruction_of_stop (h : s.fetch = .error f) : runInstruction s = .fault f := by
  have hfetch : (s.setIrqInhibit false).fetch = s.fetch := State.fetch_congr rfl rfl rfl
  rw [runInstruction, hfetch, h]

/-! ## What a step begins with -/

@[simp] theorem State.boundary_progWord (s : State) (wa : ProgAddr) : s.boundary.1.progWord wa = s.progWord wa :=
  State.progWord_congr s.boundary_cfg s.boundary_pm wa

@[simp] theorem State.boundary_fetch (s : State) : s.boundary.1.fetch = s.fetch :=
  State.fetch_congr s.boundary_cfg s.boundary_pc s.boundary_pm

theorem step_of_no_interrupt (h : interruptFor s.boundary.1 s.boundary.2 = none) :
    step s = if s.sleeping then .next s.boundary.1 else runInstruction s.boundary.1 := by
  simp only [step, h, State.boundary_sleeping]

theorem step_of_held_off {n : Nat} (h : interruptFor s.boundary.1 s.boundary.2 = some n)
    (hinhibit : s.irqInhibit = true) : step s = runInstruction (s.boundary.1.setSleeping false) := by
  simp only [step, h, State.boundary_irqInhibit, hinhibit, if_true]

theorem step_of_interrupt {n : Nat} (h : interruptFor s.boundary.1 s.boundary.2 = some n)
    (hinhibit : s.irqInhibit = false) : step s = (s.boundary.1.takeInterrupt n).toOutcome := by
  simp only [step, h, State.boundary_irqInhibit, hinhibit]
  rfl

theorem State.setSleeping_self (s : State) : s.setSleeping s.sleeping = s := rfl

theorem step_of_fetchesNext (h : FetchesNext s) : step s = runInstruction s.boundary.1 := by
  obtain ⟨hawake, htake⟩ := h
  cases hirq : interruptFor s.boundary.1 s.boundary.2 with
  | none => rw [step_of_no_interrupt hirq, hawake]; rfl
  | some n =>
    have hinhibit : s.irqInhibit = true := htake.resolve_left (by simp [hirq])
    have hsame : s.boundary.1.setSleeping false = s.boundary.1 := by
      rw [← hawake, ← s.boundary_sleeping, State.setSleeping_self]
    rw [step_of_held_off hirq hinhibit, hsame]

theorem step_of_fetch (h : FetchesNext s) (hi : s.fetch = .ok i) :
    step s = exec i (s.boundary.1.setIrqInhibit false) := by
  rw [step_of_fetchesNext h, runInstruction_of_fetch (s.boundary_fetch.trans hi)]

theorem step_of_fetch_stop (h : FetchesNext s) (hf : s.fetch = .error f) : step s = .fault f := by
  rw [step_of_fetchesNext h, runInstruction_of_stop (s.boundary_fetch.trans hf)]

end

/-- The words of an instruction the variant has are fetched as it. -/
theorem State.fetch_ok {s : State} {w w2 : Word} {i : Instr} (hw : s.progWord s.pc = .ok w)
    (h2 : isTwoWord w = true → s.progWord (s.pcPlus 1) = .ok w2) (hi : decodeWords s.cfg.isTiny w w2 = .ok i)
    (hpresent : i.presentOn s.cfg = true) : s.fetch = .ok i := by
  obtain ⟨hone, htwo, -⟩ := State.fetch_of_present (f := .hardwareStackOverflow) hw hi hpresent
  cases hlen : isTwoWord w with
  | false => exact hone hlen
  | true => exact htwo hlen (h2 hlen)

/-- Settles O5: the fetch gives the instruction of the words. -/
theorem stepRunsTheInstruction : Obligations.StepRunsTheInstruction := by
  intro s i w w2 hnext hw h2 hi _ hpresent
  simp only [State.boundary_progWord] at hw h2
  exact step_of_fetch hnext (State.fetch_ok hw h2 hi hpresent)

/-- Settles O6: the first word, then the row, then the second word. -/
theorem fetchStops : Obligations.FetchStops := by
  intro s hnext
  refine ⟨fun hpc => ?_, fun w w2 i hw hi habsent => ?_, fun w w2 i hw hi hpresent htwo hpc => ?_⟩
  · exact step_of_fetch_stop hnext (State.fetch_of_no_word (State.progWord_of_le hpc))
  · exact step_of_fetch_stop hnext (State.fetch_of_absent hw hi habsent)
  · have hstop := (State.fetch_of_present hw hi hpresent).2.2 htwo (State.progWord_of_le hpc)
    exact step_of_fetch_stop hnext hstop

/-! ## Words that are no instruction -/

/-- The constructors a word without a meaning can decode to (log 14). -/
def unlistedForms (w : Word) : List Instr :=
  [.unlisted0000 w, .unlistedLd0011 w, .unlistedLd1000 w, .unlistedLd1011 w, .unlistedSt0011 w, .unlistedSt1000 w,
    .unlistedSt1011 w, .reserved9404 w, .reserved9528 w, .reserved9548 w, .reserved95b8 w, .unlisted94x9 w,
    .unlisted95xB w, .reservedF808 w]

theorem unlistedForms_stop {w : Word} {i : Instr} (h : i ∈ unlistedForms w) :
    i.firstWord = w ∧ i.secondWord = none ∧ i.isTinyForm = false ∧ (∀ c, i.presentOn c = false) ∧
      ∀ s, exec i s = .fault (.reservedInstruction w) := by
  simp only [unlistedForms, List.mem_cons, List.not_mem_nil, or_false] at h
  obtain rfl | rfl | rfl | rfl | rfl | rfl | rfl | rfl | rfl | rfl | rfl | rfl | rfl | rfl := h <;>
    exact ⟨rfl, rfl, rfl, fun _ => rfl, fun _ => rfl⟩

/-- The top bits of a word in a row that fixes them. -/
theorem top_of_and {w m v : Word} (h : w &&& m = v) (hm : m.extractLsb' 12 4 = 0xF#4) :
    w.extractLsb' 12 4 = v.extractLsb' 12 4 := by
  rw [← h, BitVec.extractLsb'_and, hm]
  exact (BitVec.and_allOnes).symm

/-- One more bit under the mask is clear or set. -/
theorem and_or_bit {w m v : Word} (k : Nat) (h : w &&& m = v) :
    w &&& (m ||| BitVec.twoPow 16 k) = v ∨ w &&& (m ||| BitVec.twoPow 16 k) = v ||| BitVec.twoPow 16 k := by
  rw [BitVec.and_or_distrib_left, h, BitVec.and_twoPow]
  split
  case isTrue => exact .inr rfl
  case isFalse => exact .inl (by simp)

theorem inRow_of_and {m v w : Word} (h : w &&& m = v) : inRow m v w = true := beq_iff_eq.2 h

/-- The word has a form without a meaning, and is none of AVRtiny's LDS and STS. -/
def HasUnlistedForm (w : Word) : Prop :=
  ∃ i ∈ unlistedForms w, i.wellFormed = true ∧ w.extractLsb' 12 4 ≠ 0b1010#4

theorem hasUnlistedForm_of_and {w m v : Word} (i : Instr) (h : w &&& m = v) (hmem : i ∈ unlistedForms w)
    (hm : m.extractLsb' 12 4 = 0xF#4) (hv : v.extractLsb' 12 4 ≠ 0b1010#4)
    (hwf : inRow m v w = true → i.wellFormed = true) : HasUnlistedForm w :=
  ⟨i, hmem, hwf (inRow_of_and h), top_of_and h hm ▸ hv⟩

/-- Each pattern of 30_encoding.md R140 and R141 (a) is that of a row without a meaning. -/
theorem hasUnlistedForm_of_isNoInstruction {w : Word} (h : isNoInstruction w = true) : HasUnlistedForm w := by
  simp only [isNoInstruction, Bool.or_eq_true, Bool.and_eq_true, beq_iff_eq, bne_iff_ne] at h
  obtain ((((((((((h | h) | h) | h) | h) | ⟨h, hne⟩) | h) | h) | h) | ⟨h, hne⟩) | h) := h
  · exact hasUnlistedForm_of_and (.reserved9404 w) h (by simp [unlistedForms]) (by decide) (by decide) id
  · exact hasUnlistedForm_of_and (.reserved9528 w) h (by simp [unlistedForms]) (by decide) (by decide) id
  · exact hasUnlistedForm_of_and (.reserved9548 w) h (by simp [unlistedForms]) (by decide) (by decide) id
  · subst h
    exact ⟨.reserved95b8 0x95B8, by simp [unlistedForms], by decide, by decide⟩
  · exact hasUnlistedForm_of_and (.reservedF808 w) h (by simp [unlistedForms]) (by decide) (by decide) id
  · exact hasUnlistedForm_of_and (.unlisted0000 w) h (by simp [unlistedForms]) (by decide) (by decide)
      fun hrow => Bool.and_eq_true_iff.2 ⟨hrow, bne_iff_ne.2 hne⟩
  · obtain h | h := and_or_bit 9 h
    · exact hasUnlistedForm_of_and (.unlistedLd0011 w) h (by simp [unlistedForms]) (by decide) (by decide) id
    · exact hasUnlistedForm_of_and (.unlistedSt0011 w) h (by simp [unlistedForms]) (by decide) (by decide) id
  · obtain h | h := and_or_bit 9 h
    · exact hasUnlistedForm_of_and (.unlistedLd1000 w) h (by simp [unlistedForms]) (by decide) (by decide) id
    · exact hasUnlistedForm_of_and (.unlistedSt1000 w) h (by simp [unlistedForms]) (by decide) (by decide) id
  · obtain h | h := and_or_bit 9 h
    · exact hasUnlistedForm_of_and (.unlistedLd1011 w) h (by simp [unlistedForms]) (by decide) (by decide) id
    · exact hasUnlistedForm_of_and (.unlistedSt1011 w) h (by simp [unlistedForms]) (by decide) (by decide) id
  · have hlisted : w &&& 0xFEEF ≠ 0x9409 := fun hrow => hne <| calc
      w &&& 0x00E0 = w &&& (0xFEEF &&& 0x00E0) := rfl
      _ = w &&& 0xFEEF &&& 0x00E0 := (BitVec.and_assoc ..).symm
      _ = 0x0000 := by rw [hrow]; decide
    exact hasUnlistedForm_of_and (.unlisted94x9 w) h (by simp [unlistedForms]) (by decide) (by decide)
      fun hrow => Bool.and_eq_true_iff.2 ⟨hrow, bne_iff_ne.2 hlisted⟩
  · exact hasUnlistedForm_of_and (.unlisted95xB w) h (by simp [unlistedForms]) (by decide) (by decide) id

/-- Settles O7: the word decodes to its form without a meaning, on AVRtiny too. -/
theorem noInstructionStops : Obligations.NoInstructionStops := by
  intro s w h
  obtain ⟨i, hmem, hwf, htop⟩ := hasUnlistedForm_of_isNoInstruction h
  obtain ⟨hfirst, hsecond, htiny, habsent, hexec⟩ := unlistedForms_stop hmem
  have hdecode : ∀ w2, decodeWords s.cfg.isTiny w w2 = .ok i := fun w2 => by
    have hplain : decodeWords false w w2 = .ok i := hfirst ▸ decodeWords_firstWord hwf htiny w2 (.inl hsecond)
    cases s.cfg.isTiny with
    | false => exact hplain
    | true => rw [decodeWords_true_of_ne htop, hplain]
  refine ⟨fun w2 => ⟨i, hdecode w2, hexec s, hmem⟩, fun hnext hw => ?_⟩
  exact step_of_fetch_stop hnext (State.fetch_of_absent hw (hdecode 0) (habsent _))

/-- Where the variant has it, an instruction outside the model is refused. -/
theorem whenPresentRefuse_present {i : Instr} {s : State} {r : Refusal} (h : i.presentOn s.cfg = true) :
    whenPresentRefuse i s r = .refused r := if_pos h

theorem whenPresentRefuse_absent {i : Instr} {s : State} {r : Refusal} (h : i.presentOn s.cfg = false) :
    whenPresentRefuse i s r = .fault (.reservedInstruction i.firstWord) := if_neg (by simp [h])

theorem exec_absent {i : Instr} {s : State} (h : i.presentOn s.cfg = false) :
    exec i s = .fault (.reservedInstruction i.firstWord) := by
  cases i with
  | unlisted0000 | unlistedLd0011 | unlistedLd1000 | unlistedLd1011 | unlistedSt0011 | unlistedSt1000 | unlistedSt1011
  | reserved9404 | reserved9528 | reserved9548 | reserved95b8 | unlisted94x9 | unlisted95xB | reservedF808 => rfl
  | des | break_ | spm | spmZinc => exact whenPresentRefuse_absent h
  | nop | cpi | sbci | subi | ori | andi | bset | bclr | sleep | wdr | cbi | sbi | rjmp | ldi | brbs | brbc => cases h
  | _ => exact whenPresent_absent h

/-- Settles O8: every meaning asks first whether the variant has the instruction. -/
theorem absentAndUnmodelledStops : Obligations.AbsentAndUnmodelledStops := by
  refine ⟨fun i s => exec_absent, fun s => ⟨fun k h => ?_, fun h => ?_, fun h => ?_, fun h => ?_⟩⟩
  · exact whenPresentRefuse_present (i := .des k) h
  · exact whenPresentRefuse_present (i := .break_) h
  · exact whenPresentRefuse_present (i := .spm) (bne_iff_ne.2 h)
  · exact whenPresentRefuse_present (i := .spmZinc) (beq_iff_eq.2 h)

/-! ## Interrupt entry -/

section
variable {s t : State}

theorem State.push8_kept {v : Byte} (h : s.push8 v = .ok t) :
    t.cfg = s.cfg ∧ t.sleeping = s.sleeping := by
  obtain ⟨u, hu, rfl⟩ := State.push8_ok h
  obtain ⟨hcfg, -, -, -, hsleeping, -⟩ := hu.kept
  exact ⟨hcfg, hsleeping⟩

/-- Where a return address goes, the variant and sleep are as before. -/
theorem State.pushPc_kept {v : ProgAddr} (h : s.pushPc v = .ok t) : t.cfg = s.cfg ∧ t.sleeping = s.sleeping := by
  cases hkind : s.cfg.stackKind with
  | hardware3 =>
    rw [State.pushPc_hardware v hkind] at h
    split at h
    case isTrue => cases h
    case isFalse => cases h; exact ⟨rfl, rfl⟩
  | dataSpace =>
    obtain ⟨a, b, ha, hb, ht⟩ := State.pushPc_data hkind h
    obtain ⟨hacfg, hasleep⟩ := State.push8_kept ha
    obtain ⟨hbcfg, hbsleep⟩ := State.push8_kept hb
    split at ht
    case isTrue =>
      obtain ⟨htcfg, htsleep⟩ := State.push8_kept ht
      exact ⟨by rw [htcfg, hbcfg, hacfg], by rw [htsleep, hbsleep, hasleep]⟩
    case isFalse =>
      cases ht
      exact ⟨by rw [hbcfg, hacfg], by rw [hbsleep, hasleep]⟩

/-- SREG as interrupt entry leaves it: I is cleared but on XMEGA (60_exceptions.md R392). -/
theorem bitOf_entry (sr : Byte) (xmega : Bool) (b : BitVec 3) :
    bitOf (if xmega then sr else withBit sr bitI false) b = (bitOf sr b && (b ≠ 7 || xmega)) := by
  cases xmega with
  | true => simp
  | false => by_cases hb : b = 7 <;> simp [bitOf_withBit, bitI, hb, Bool.and_comm]

/-- What is presented is pending, and a source of the variant (log 31). -/
theorem State.mem_boundary {m : Nat} (h : m ∈ s.boundary.2) :
    m ∈ s.boundary.1.pending ∧ 1 ≤ m ∧ m ≤ s.cfg.nIrq := by
  unfold State.boundary at h ⊢
  split
  case h_1 hnone => simp [hnone] at h
  case h_2 x rest hcons =>
    simp only [hcons, presentedSources, List.mem_filter, Bool.and_eq_true, List.contains_iff_mem] at h
    obtain ⟨-, hsource, hpending⟩ := h
    have hbounds : 1 ≤ m ∧ m ≤ s.cfg.nIrq := by simpa [isSource] using hsource
    exact ⟨List.mem_filter.2 ⟨hpending, hsource⟩, hbounds⟩

theorem State.takeInterrupt_eq (s : State) (n : Nat) :
    s.takeInterrupt n = ((s.setSleeping false).pushPc s.pc).map fun u =>
      { u with
        pc := vectorAddr u.cfg n
        sreg := if u.cfg.isXmega then u.sreg else withBit u.sreg bitI false
        trace := .irqTaken n :: u.trace } := by
  unfold State.takeInterrupt
  congr 1
  funext u
  dsimp only
  split <;> rfl

end

/-- Settles O9: the least source presented, a push, then the vector. -/
theorem interruptEntry : Obligations.InterruptEntry := by
  intro s n hvalid hinhibit hirq
  obtain ⟨hI, hmin⟩ := interruptFor_eq_some hirq
  obtain ⟨hmem, hle⟩ := List.min?_eq_some_iff.1 hmin
  have hstep := step_of_interrupt hirq hinhibit
  rw [State.takeInterrupt_eq, State.boundary_pc] at hstep
  refine ⟨⟨s.boundary_sreg ▸ hI, hmem, hle, fun m => State.mem_boundary⟩, fun u hu => ?_, fun f hf => ?_⟩
  · obtain ⟨hcfg, hsleeping⟩ := State.pushPc_kept hu
    have hcfg : u.cfg = s.cfg := hcfg.trans s.boundary_cfg
    have hpush : (s.boundary.1.setSleeping false).pushPc s.pc = .ok u := hu
    rw [hpush] at hstep
    refine ⟨_, hstep, ?_, fun b => ?_, rfl, hsleeping⟩
    · exact (congrArg (fun c => (vectorAddr c n).toNat) hcfg).trans (toNat_truncPc_ofNat hvalid _)
    · rw [← hcfg]
      exact bitOf_entry ..
  · have hpush : (s.boundary.1.setSleeping false).pushPc s.pc = .error f := hf
    rw [hpush] at hstep
    exact hstep

/-! ## Sleep and quiescence -/

theorem State.boundary_inputs (s : State) : s.boundary.1.inputs = s.inputs.tail := by
  unfold State.boundary
  split
  case h_1 h => simp [h]
  case h_2 h => simp [h]

/-- Settles O11: the step is the boundary; an interrupt held off only wakes the core. -/
theorem sleepHolds : Obligations.SleepHolds := by
  intro s hsleeping
  refine ⟨fun hirq => ⟨s.boundary.1, ?_, s.boundary_inputs, ?_, s.boundary_eq⟩, ?_⟩
  · rw [step_of_no_interrupt hirq, hsleeping]
    rfl
  · rw [State.boundary_sleeping, hsleeping]
  · intro n i w w2 hirq hinhibit hw h2 hi hpresent
    have hfetch : (s.boundary.1.setSleeping false).fetch = .ok i :=
      (State.fetch_congr s.boundary_cfg s.boundary_pc s.boundary_pm).trans (State.fetch_ok hw h2 hi hpresent)
    rw [step_of_held_off hirq hinhibit, runInstruction_of_fetch hfetch]
    rfl

theorem State.Quiescent.no_interrupt {s : State} (h : s.Quiescent) :
    interruptFor s.boundary.1 s.boundary.2 = none := by
  unfold interruptFor
  split
  case isFalse => rfl
  case isTrue hI =>
    have hnone : s.cfg.nIrq = 0 := h.1.resolve_right (by rw [← s.boundary_sreg, hI]; decide)
    have hempty : s.boundary.2 = [] := List.eq_nil_iff_forall_not_mem.2 fun m hm => by
      obtain ⟨-, hlow, hhigh⟩ := State.mem_boundary hm
      omega
    rw [hempty]
    rfl

/-- The word of the jump to itself (60_exceptions.md R404). -/
theorem decodeWords_selfJump (tiny : Bool) (w2 : Word) : decodeWords tiny 0xCFFF w2 = .ok (.rjmp 0xFFF) := by
  have hplain : decodeWords false 0xCFFF w2 = .ok (.rjmp 0xFFF) :=
    decodeWords_firstWord (i := .rjmp 0xFFF) rfl rfl w2 (.inl rfl)
  cases tiny with
  | false => exact hplain
  | true => rw [decodeWords_true_of_ne (by decide), hplain]

theorem exec_rjmp (k : BitVec 12) (s : State) :
    exec (.rjmp k) s = .next (s.setPc (s.relTarget (k.signExtend 22))) := rfl

/-- RJMP with k = -1 goes to its own word. -/
theorem State.relTarget_self {s : State} (h : s.pc.toNat < 2 ^ s.cfg.pcBits) :
    s.relTarget ((0xFFF : BitVec 12).signExtend 22) = s.pc := by
  have hback : s.pc + 1 + (0xFFF : BitVec 12).signExtend 22 = s.pc := by
    rw [show (0xFFF : BitVec 12).signExtend 22 = -1 from rfl]
    bv_omega
  rw [State.relTarget, hback]
  exact lowBits_of_lt h

/-- Settles O13: a sleeping core holds, and an awake one jumps to its own word. -/
theorem quiescentStays : Obligations.QuiescentStays := by
  intro s hpc _ hq
  have hstep := step_of_no_interrupt hq.no_interrupt
  by_cases hsleeping : s.sleeping = true
  · refine ⟨s.boundary.1, by rw [hstep, hsleeping]; rfl, ⟨by simpa using hq.1, .inl ?_⟩, ?_⟩
    · rw [State.boundary_sleeping, hsleeping]
    · rw [s.boundary_eq]
  · have hword : s.progWord s.pc = .ok 0xCFFF := hq.2.resolve_left hsleeping
    have hfetch : s.fetch = .ok (.rjmp 0xFFF) :=
      State.fetch_ok (w2 := 0) hword (fun htwo => absurd htwo (by decide)) (decodeWords_selfJump ..) rfl
    have hexec : exec (.rjmp 0xFFF) (s.boundary.1.setIrqInhibit false) =
        .next (s.boundary.1.setIrqInhibit false) := by
      rw [exec_rjmp, State.relTarget_self (by simpa using hpc)]
      rfl
    refine ⟨s.boundary.1.setIrqInhibit false, ?_, ⟨by simpa using hq.1, .inr ?_⟩, ?_⟩
    · rw [step_of_fetch ⟨by simpa using hsleeping, .inl hq.no_interrupt⟩ hfetch, hexec]
    · have hsame := State.progWord_congr (t := s.boundary.1.setIrqInhibit false) s.boundary_cfg s.boundary_pm s.pc
      rw [State.setIrqInhibit_pc, State.boundary_pc, hsame, hword]
    · rw [s.boundary_eq]
      rfl

end Sys2Proof.Machine

/-! PROOFS. Data memory (20_memory.md sections 2 and 3): the address maps, SRAM, and the CPU's own I/O registers. -/

namespace Sys2Proof.Machine

/-! ## What an address reaches, rule by rule (20_memory.md R80) -/

section
variable {c : Cfg} {addr : DataAddr}

theorem regionOf_register (hregs : c.regsInDataSpace = true) (h : addr.toNat ≤ 0x1F) :
    regionOf c addr = .register (BitVec.ofNat 5 addr.toNat) := by
  simp [regionOf, hregs, h]

theorem regionOf_io (hlow : c.ioBase ≤ addr.toNat) (hhigh : addr.toNat < c.ioBase + 64) :
    regionOf c addr = .io (BitVec.ofNat 6 (addr.toNat - c.ioBase)) := by
  have hregister : (c.regsInDataSpace && decide (addr.toNat ≤ 0x1F)) = false := by
    cases hregs : c.regsInDataSpace with
    | false => rfl
    | true =>
      simp only [Cfg.ioBase, hregs, if_true] at hlow
      simp only [Bool.true_and, decide_eq_false_iff_not]
      omega
  simp [regionOf, hregister, hlow, hhigh]

section
variable (habove : c.ioBase + 64 ≤ addr.toNat)
include habove

/-- Above the I/O window the extended I/O, SRAM and the rest are told apart. -/
theorem regionOf_above : regionOf c addr =
    if c.inExtIo addr.toNat then .extIo
    else if c.ramStart ≤ addr.toNat && addr.toNat ≤ c.ramEnd then .ram else .outer := by
  have hregister : (c.regsInDataSpace && decide (addr.toNat ≤ 0x1F)) = false := by
    simp only [Bool.and_eq_false_iff, decide_eq_false_iff_not]
    omega
  have hio : (decide (c.ioBase ≤ addr.toNat) && decide (addr.toNat < c.ioBase + 64)) = false := by
    simp only [Bool.and_eq_false_iff, decide_eq_false_iff_not]
    omega
  simp only [regionOf, hregister, hio, Bool.false_eq_true, if_false]

theorem regionOf_extIo (h : c.inExtIo addr.toNat = true) : regionOf c addr = .extIo := by
  rw [regionOf_above habove, if_pos h]

theorem regionOf_ram (hext : c.inExtIo addr.toNat = false) (hlow : c.ramStart ≤ addr.toNat)
    (hhigh : addr.toNat ≤ c.ramEnd) : regionOf c addr = .ram := by
  rw [regionOf_above habove, hext, if_neg (by decide), if_pos (by simp [hlow, hhigh])]

theorem regionOf_outer (hext : c.inExtIo addr.toNat = false) (h : addr.toNat < c.ramStart ∨ c.ramEnd < addr.toNat) :
    regionOf c addr = .outer := by
  have hram : ¬ (decide (c.ramStart ≤ addr.toNat) && decide (addr.toNat ≤ c.ramEnd)) = true := by
    simp only [Bool.and_eq_true, decide_eq_true_eq]
    omega
  rw [regionOf_above habove, hext, if_neg (by decide), if_neg hram]

end

theorem Cfg.inPlatform_of_writable {a : Nat} (h : c.inWritablePlatform a = true) : c.inPlatform a = true := by
  simp only [Cfg.inWritablePlatform, Cfg.inPlatform, List.any_eq_true, Bool.and_eq_true] at h ⊢
  obtain ⟨r, hr, ⟨-, hfirst⟩, hlast⟩ := h
  exact ⟨r, hr, hfirst, hlast⟩

/-- An address that nothing claims stops every access (20_memory.md R83). -/
theorem nothingAt_of_outer (hregion : regionOf c addr = .outer) (hwindow : c.inFlashWindow addr.toNat = false)
    (hplatform : c.inPlatform addr.toNat = false) : nothingAt c addr := by
  rintro s rfl
  refine ⟨?_, fun v => State.memWrite_of_not_storable v fun hstore => ?_⟩
  · rw [State.memRead_error_iff, ReadStops, hregion]
    exact ⟨hwindow, hplatform, rfl⟩
  · simp [Cfg.inPlatform_of_writable (hstore hregion)] at hplatform

theorem Cfg.inFlashWindow_of_not_tiny {a : Nat} (h : c.isTiny = false) : c.inFlashWindow a = false := by
  simp [Cfg.inFlashWindow, h]

theorem Cfg.valid_ram (h : c.valid = true) : c.ramStart ≤ c.ramEnd + 1 := by
  simp only [Cfg.valid, Cfg.dataValid, Bool.and_eq_true, decide_eq_true_eq] at h
  obtain ⟨⟨-, hdata⟩, -⟩ := h
  obtain ⟨⟨⟨⟨-, hram⟩, -⟩, -⟩, -⟩ := hdata
  exact hram

/-! ## The four maps (20_memory.md section 2) -/

/-- The classic map, whose registers and I/O window lie in the data space (R75). -/
theorem classic_map (hvalid : c.valid = true) (hregs : c.regsInDataSpace = true) :
    (addr.toNat ≤ 0x1F → ∃ d : Reg, d.toNat = addr.toNat ∧ regionOf c addr = .register d) ∧
    (0x20 ≤ addr.toNat → addr.toNat ≤ 0x5F →
      ∃ io : BitVec 6, io.toNat = addr.toNat - 0x20 ∧ regionOf c addr = .io io) ∧
    (0x60 ≤ addr.toNat → addr.toNat ≤ 0xFF → c.core ≠ .avr1 → c.hasExtIo = true → regionOf c addr = .extIo) ∧
    (0x60 ≤ addr.toNat → (c.hasExtIo = false ∨ 0xFF < addr.toNat) → c.ramStart ≤ addr.toNat →
      addr.toNat ≤ c.ramEnd → regionOf c addr = .ram) ∧
    (0x60 ≤ addr.toNat → addr.toNat ≤ 0xFF → c.core ≠ .avr1 → c.hasExtIo = false →
      (addr.toNat < c.ramStart ∨ c.ramEnd < addr.toNat) → nothingAt c addr) := by
  obtain ⟨hxmega, htiny, hregions⟩ := (Cfg.valid_maps hvalid).1 hregs
  have hbase : c.ioBase = 0x20 := by simp [Cfg.ioBase, hregs]
  have hext : c.hasExtIo = false ∨ 0xFF < addr.toNat → c.inExtIo addr.toNat = false := by
    rintro (h | h)
    · simp [Cfg.inExtIo, hxmega, h]
    · simp [Cfg.inExtIo, hxmega, Nat.not_le.2 h]
  refine ⟨fun h => ⟨_, Nat.mod_eq_of_lt (by omega), regionOf_register hregs h⟩, fun hlow hhigh => ?_,
    fun hlow hhigh hcore h => ?_, fun hlow h => regionOf_ram (by omega) (hext h), fun hlow hhigh hcore h hout => ?_⟩
  · refine ⟨_, ?_, regionOf_io (by omega) (by omega)⟩
    rw [hbase]
    exact Nat.mod_eq_of_lt (by omega)
  · exact regionOf_extIo (by omega) (by simp [Cfg.inExtIo, hxmega, hregs, hcore, h, hlow, hhigh])
  · refine nothingAt_of_outer (regionOf_outer (by omega) (hext (.inl h)) hout) (Cfg.inFlashWindow_of_not_tiny htiny) ?_
    simp only [Cfg.inPlatform, List.any_eq_false, Bool.and_eq_true, decide_eq_true_eq, not_and]
    intro r hr hfirst
    have := hregions hcore h r hr
    omega

/-- The XMEGA map (R76). -/
theorem xmega_map (hvalid : c.valid = true) (hmap : c.xmegaMap = true) :
    (addr.toNat ≤ 0x3F → ∃ io : BitVec 6, io.toNat = addr.toNat ∧ regionOf c addr = .io io) ∧
    (0x40 ≤ addr.toNat → addr.toNat ≤ 0x0FFF → regionOf c addr = .extIo) ∧
    (0x1000 ≤ addr.toNat → addr.toNat ≤ 0x1FFF → answeredByPlatform c addr = true) ∧
    (0x2000 ≤ addr.toNat → addr.toNat ≤ c.ramEnd → regionOf c addr = .ram) := by
  obtain ⟨hregs, htiny, hstart, r, hr, hfirst, hlast⟩ := (Cfg.valid_maps hvalid).2.1 hmap
  have hbase : c.ioBase = 0 := by simp [Cfg.ioBase, hregs]
  have hext : 0x0FFF < addr.toNat → c.inExtIo addr.toNat = false := fun h => by
    simp [Cfg.inExtIo, hmap, Nat.not_le.2 h]
  refine ⟨fun h => ⟨_, ?_, regionOf_io (by omega) (by omega)⟩, fun hlow hhigh => ?_, fun hlow hhigh => ?_,
    fun hlow hhigh => regionOf_ram (by omega) (hext (by omega)) (by omega) hhigh⟩
  · rw [hbase]
    exact Nat.mod_eq_of_lt (by omega)
  · exact regionOf_extIo (by omega) (by simp [Cfg.inExtIo, hmap, hlow, hhigh])
  · have hplatform : c.inPlatform addr.toNat = true :=
      List.any_eq_true.2 ⟨r, hr, by simp only [Bool.and_eq_true, decide_eq_true_eq]; omega⟩
    rw [answeredByPlatform, regionOf_outer (by omega) (hext (by omega)) (by omega)]
    simp [Cfg.inFlashWindow_of_not_tiny htiny, hplatform]

/-- The AVRtiny map, with its window on program memory (R78). -/
theorem tiny_map (hvalid : c.valid = true) (hcore : c.core = .avrTiny) :
    (addr.toNat ≤ 0x3F → ∃ io : BitVec 6, io.toNat = addr.toNat ∧ regionOf c addr = .io io) ∧
    (0x40 ≤ addr.toNat → addr.toNat ≤ c.ramEnd → regionOf c addr = .ram) ∧
    (∀ ba < 2 * c.flashWords, addr.toNat = c.tinyFlashDataBase + ba → ¬ Storable c addr ∧
      ∀ s : State, s.cfg = c → ReadsAs s addr (s.pmByte ba)) := by
  obtain ⟨hregs, hxmega, hstart, hend, hregions⟩ := (Cfg.valid_maps hvalid).2.2.1 hcore
  have hbase : c.ioBase = 0 := by simp [Cfg.ioBase, hregs]
  have hext : c.inExtIo addr.toNat = false := by simp [Cfg.inExtIo, hxmega, hregs]
  refine ⟨fun h => ⟨_, ?_, regionOf_io (by omega) (by omega)⟩,
    fun hlow hhigh => regionOf_ram (by omega) hext (by omega) hhigh, fun ba hba haddr => ?_⟩
  · rw [hbase]
    exact Nat.mod_eq_of_lt (by omega)
  · have hram : c.ramStart ≤ c.ramEnd + 1 := Cfg.valid_ram hvalid
    have houter : regionOf c addr = .outer := regionOf_outer (by omega) hext (by omega)
    refine ⟨fun hstore => ?_, ?_⟩
    · obtain ⟨r, hr, hin⟩ := List.any_eq_true.1 (hstore houter)
      simp only [Bool.and_eq_true, decide_eq_true_eq] at hin
      obtain ⟨⟨hwritable, hfirst⟩, hlast⟩ := hin
      obtain h | h | h := hregions r hr
      · simp [h] at hwritable
      · omega
      · omega
    · rintro s rfl
      have hwindow : s.cfg.inFlashWindow addr.toNat = true := by
        simp only [Cfg.inFlashWindow, Cfg.isTiny, hcore, beq_self_eq_true, Bool.true_and, Bool.and_eq_true,
          decide_eq_true_eq]
        omega
      simp only [ReadsAs, houter, hwindow, if_true]
      rw [haddr, Nat.add_sub_cancel_left]

/-- AVR1 has nothing above its 96 bytes of registers and I/O (R77). -/
theorem avr1_map (hvalid : c.valid = true) (hcore : c.core = .avr1) (h : 0x60 ≤ addr.toNat) : nothingAt c addr := by
  obtain ⟨hregs, hram, hregions⟩ := (Cfg.valid_maps hvalid).2.2.2 hcore
  obtain ⟨hxmega, htiny, -⟩ := (Cfg.valid_maps hvalid).1 hregs
  have hbase : c.ioBase = 0x20 := by simp [Cfg.ioBase, hregs]
  have hext : c.inExtIo addr.toNat = false := by simp [Cfg.inExtIo, hxmega, hcore]
  exact nothingAt_of_outer (regionOf_outer (by omega) hext (by omega)) (Cfg.inFlashWindow_of_not_tiny htiny)
    (by simp [Cfg.inPlatform, hregions])

end

/-- Settles O18: the four maps, one by one. -/
theorem dataAddressMaps : Obligations.DataAddressMaps := fun _ _ hvalid =>
  ⟨classic_map hvalid, xmega_map hvalid, tiny_map hvalid, avr1_map hvalid⟩

/-! ## SRAM -/

section
variable {s t : State} {addr : DataAddr}

theorem State.memWrite_ram (h : inRam s.cfg addr) (v : Byte) :
    s.memWrite addr v = .ok (s.setDm (Memory.write .data s.dm addr.toNat v)) := by
  have h : regionOf s.cfg addr = .ram := h
  rw [State.memWrite, h]

/-- A read of SRAM gives the byte stored there, and changes nothing. -/
theorem State.memRead_ram (h : inRam s.cfg addr) {v : Byte} :
    s.memRead addr = .ok (v, t) ↔ Memory.read .data s.dm addr.toNat = some v ∧ t = s := by
  have h : regionOf s.cfg addr = .ram := h
  rw [State.memRead_ok_iff, ReadsAs, drawsAfterRead, answeredByPlatform, h]
  exact Iff.rfl

end

/-- Settles O19: what `Memory.write` says of the byte and of the others. -/
theorem ramReadsBack : Obligations.RamReadsBack := by
  intro s addr v hram
  let t := s.setDm (Memory.write .data s.dm addr.toNat v)
  have hread {a : DataAddr} (ha : inRam s.cfg a) (x : Byte) :
      t.memRead a = .ok (x, t) ↔ Memory.read .data t.dm a.toNat = some x := by
    rw [State.memRead_ram (s := t) ha, and_iff_left rfl]
  refine ⟨t, State.memWrite_ram hram v, (hread hram v).2 (Memory.read_write_same ..), fun a x hne ha => ?_,
    fun _ _ => rfl, rfl⟩
  have hother : a.toNat ≠ addr.toNat := fun h => hne (BitVec.eq_of_toNat_eq h)
  rw [hread ha, State.memRead_ram ha, and_iff_left rfl, State.setDm_dm, Memory.read_write_other .data s.dm v hother]

/-! ## The CPU's I/O registers (10_state.md section 6) -/

section
variable {s : State} {a : BitVec 6} {r : CpuReg} {v : Byte}

theorem State.ioRead_cpu (h : ioTarget s.cfg a = some r) : s.ioRead a = (s.cpuRead r, s) := by
  rw [State.ioRead, h]

@[simp] theorem State.cpuWrite_cfg : (s.cpuWrite r v).cfg = s.cfg := by
  cases r with
  | spl =>
    unfold State.cpuWrite
    dsimp only
    split <;> rfl
  | eind => exact s.setEind_cfg v
  | ramp r => exact s.setRamp_cfg r v
  | _ => rfl

/-- A read after a write, of the same register or of another. -/
theorem State.ioRead_ioWrite {b : BitVec 6} {q : CpuReg} (ha : ioTarget s.cfg a = some r)
    (hb : ioTarget s.cfg b = some q) : ((s.ioWrite a v).ioRead b).1 = (s.cpuWrite r v).cpuRead q := by
  have hwrite : s.ioWrite a v = s.cpuWrite r v := by rw [State.ioWrite, ha]
  rw [hwrite, State.ioRead_cpu (by rwa [State.cpuWrite_cfg])]

theorem highByte_append (x y : Byte) : highByte (x ++ y) = x := by
  rw [highByte, BitVec.extractLsb'_append_eq_left]

theorem lowByte_append (x y : Byte) : lowByte (x ++ y) = y := by
  rw [lowByte, BitVec.extractLsb'_append_eq_right]

theorem lowBits_sixteen (x : BitVec 16) : lowBits 16 x = x := lowBits_of_lt x.isLt

/-- Eight bits of SP are its low byte under a high byte of zero. -/
theorem lowBits_eight (x : BitVec 16) : lowBits 8 x = (0 : Byte) ++ lowByte x := by
  apply BitVec.eq_of_toNat_eq
  rw [toNat_lowBits, toNat_append_eq_mul_add]
  simp [lowByte]

theorem State.spVal_setSp (x : BitVec 16) : (s.setSp x).spVal = lowBits s.cfg.spBits x :=
  lowBits_of_lt (lowBits_toNat_lt x)

theorem State.spVal_write_spl : (s.cpuWrite .spl v).spVal = lowBits s.cfg.spBits (highByte s.spVal ++ v) := by
  rw [← State.spVal_setSp]
  unfold State.cpuWrite
  dsimp only
  split <;> rfl

theorem State.spVal_write_sph : (s.cpuWrite .sph v).spVal = lowBits s.cfg.spBits (v ++ lowByte s.spVal) :=
  State.spVal_setSp _

theorem toNat_eindVal_setEind :
    (s.setEind v).eindVal.toNat = if s.cfg.hasEind then v.toNat % 2 ^ s.cfg.eindBits else 0 := by
  unfold State.setEind State.eindVal
  cases h : s.cfg.hasEind with
  | false => simp [h]
  | true => simp [h, toNat_lowBits]

theorem toNat_ramp_setRamp (r : Ramp) :
    ((s.setRamp r v).ramp r).toNat = if r.present s.cfg then v.toNat % 2 ^ s.cfg.rampBits else 0 := by
  unfold State.setRamp State.ramp
  cases h : r.present s.cfg with
  | false => simp [h]
  | true => cases r <;> simp_all [toNat_lowBits, State.rampRaw, Ramp.present]

end

section
variable {s : State} {v : Byte}

/-- A write of SPL reads back and leaves SPH (10_state.md R38). -/
theorem State.write_spl_reads_back (hvalid : s.cfg.valid = true) :
    (s.cpuWrite .spl v).cpuRead .spl = v ∧ (s.cpuWrite .spl v).cpuRead .sph = s.cpuRead .sph := by
  rw [State.cpuRead, State.cpuRead, State.cpuRead, State.spVal_write_spl, State.spVal]
  obtain ⟨hbits | hbits, -⟩ := Cfg.valid_stack hvalid <;> rw [hbits]
  · simp only [lowBits_eight, highByte_append, lowByte_append, and_self]
  · simp only [lowBits_sixteen, highByte_append, lowByte_append, and_self]

/-- A write of SPH reads back where SP has a high byte, and leaves SPL. -/
theorem State.write_sph_reads_back (hbits : s.cfg.spBits = 16) :
    (s.cpuWrite .sph v).cpuRead .sph = v ∧ (s.cpuWrite .sph v).cpuRead .spl = s.cpuRead .spl := by
  rw [State.cpuRead, State.cpuRead, State.cpuRead, State.spVal_write_sph, hbits, lowBits_sixteen]
  exact ⟨highByte_append .., lowByte_append ..⟩

/-- Where SP has no high byte SPH reads zero (D26). -/
theorem State.sph_reads_zero (hbits : s.cfg.spBits = 8) : s.cpuRead .sph = 0 := by
  rw [State.cpuRead, State.spVal, hbits, lowBits_eight, highByte_append]

end

/-- The I/O addresses from 0x38 on are the CPU's, but for SP's on AVR1 (10_state.md table R45). -/
theorem exists_ioTarget {c : Cfg} {a : BitVec 6} (ha : 0x38 ≤ a.toNat) (hkind : c.stackKind = .dataSpace) :
    ∃ r, ioTarget c a = some r := by
  have hreg : ∀ b : BitVec 6, 0x38 ≤ b.toNat → (cpuRegAt b).isSome = true := by decide
  obtain ⟨r, hr⟩ := Option.isSome_iff_exists.1 (hreg a ha)
  have hcore : r.ofCore c = true := by cases r <;> simp [CpuReg.ofCore, hkind]
  exact ⟨r, by rw [ioTarget, hr, Option.filter_some_pos hcore]⟩

/-- Settles O20: a read after a write, register by register. -/
theorem cpuRegistersReadBack : Obligations.CpuRegistersReadBack := by
  intro s v hvalid
  have hspl (hkind : s.cfg.stackKind = .dataSpace) : ioTarget s.cfg 0x3D = some .spl := by
    simp [ioTarget, cpuRegAt, CpuReg.ofCore, hkind]
  have hsph (hkind : s.cfg.stackKind = .dataSpace) : ioTarget s.cfg 0x3E = some .sph := by
    simp [ioTarget, cpuRegAt, CpuReg.ofCore, hkind]
  have hback {a : BitVec 6} {r : CpuReg} (ha : ioTarget s.cfg a = some r) :
      ((s.ioWrite a v).ioRead a).1 = (s.cpuWrite r v).cpuRead r := State.ioRead_ioWrite ha ha
  refine ⟨hback (r := .sreg) rfl, fun hkind => ?_, fun hkind hbits => ?_, fun hkind hbits => ?_, ?_, ?_, ?_, ?_, ?_,
    fun a ha hkind => ?_⟩
  · obtain ⟨hlow, hhigh⟩ := State.write_spl_reads_back (v := v) hvalid
    rw [State.ioRead_ioWrite (hspl hkind) (hspl hkind), State.ioRead_ioWrite (hspl hkind) (hsph hkind),
      State.ioRead_cpu (hsph hkind)]
    exact ⟨hlow, hhigh⟩
  · obtain ⟨hhigh, hlow⟩ := State.write_sph_reads_back (v := v) hbits
    rw [State.ioRead_ioWrite (hsph hkind) (hsph hkind), State.ioRead_ioWrite (hsph hkind) (hspl hkind),
      State.ioRead_cpu (hspl hkind)]
    exact ⟨hhigh, hlow⟩
  · rw [hback (hsph hkind)]
    exact State.sph_reads_zero (by rwa [State.cpuWrite_cfg])
  · rw [hback (r := .eind) rfl]
    exact toNat_eindVal_setEind
  · rw [hback (r := .ramp .z) rfl]
    exact toNat_ramp_setRamp .z
  · rw [hback (r := .ramp .y) rfl]
    exact toNat_ramp_setRamp .y
  · rw [hback (r := .ramp .x) rfl]
    exact toNat_ramp_setRamp .x
  · rw [hback (r := .ramp .d) rfl]
    exact toNat_ramp_setRamp .d
  · obtain ⟨r, hr⟩ := exists_ioTarget ha hkind
    rw [State.ioRead_cpu hr]

end Sys2Proof.Machine

/-! PROOFS. The stack (20_memory.md section 6): bytes and return addresses pushed and popped. -/

namespace Sys2Proof.Machine

/-! ## One byte -/

section
variable {s t : State} {v : Byte}

theorem State.toNat_spVal_setSp (x : BitVec 16) : (s.setSp x).spVal.toNat = x.toNat % 2 ^ s.cfg.spBits := by
  rw [State.spVal_setSp, toNat_lowBits]

theorem State.spVal_lt (s : State) : s.spVal.toNat < 2 ^ s.cfg.spBits := lowBits_toNat_lt _

/-- SP lowered, modulo 2^SP_BITS. -/
theorem State.toNat_spVal_lowered (hvalid : s.cfg.valid = true) :
    (s.spVal - 1).toNat % 2 ^ s.cfg.spBits = (s.spVal.toNat + 2 ^ s.cfg.spBits - 1) % 2 ^ s.cfg.spBits := by
  have hlt := s.spVal_lt
  obtain ⟨hbits | hbits, -⟩ := Cfg.valid_stack hvalid <;> rw [hbits] at hlt ⊢ <;> bv_omega

/-- SP raised, modulo 2^SP_BITS. -/
theorem State.toNat_spVal_raised (hvalid : s.cfg.valid = true) :
    (s.setSp (s.spVal + 1)).spVal.toNat = (s.spVal.toNat + 1) % 2 ^ s.cfg.spBits := by
  rw [State.toNat_spVal_setSp]
  obtain ⟨hbits | hbits, -⟩ := Cfg.valid_stack hvalid <;> rw [hbits] <;> bv_omega

/-- A push where the byte has somewhere to go. -/
theorem State.push8_of_storable (hvalid : s.cfg.valid = true) (hstore : Storable s.cfg (stackAddr s.spVal)) (v : Byte) :
    ∃ u t, ByteStored s u (stackAddr s.spVal) v ∧ s.push8 v = .ok t ∧ t = { u with sp := t.sp } ∧
      t.spVal.toNat = (s.spVal.toNat + 2 ^ s.cfg.spBits - 1) % 2 ^ s.cfg.spBits := by
  obtain ⟨u, hu⟩ := State.memWrite_of_storable v hstore
  have hstored := (State.memWrite_ok hu).2
  obtain ⟨hcfg, -⟩ := hstored.kept
  refine ⟨u, u.setSp (s.spVal - 1), hstored, by rw [State.push8, hu]; rfl, rfl, ?_⟩
  rw [State.toNat_spVal_setSp, hcfg, State.toNat_spVal_lowered hvalid]

theorem State.push8_of_not_storable (hstore : ¬ Storable s.cfg (stackAddr s.spVal)) (v : Byte) :
    s.push8 v = .error (.dataAccessOutOfRange (stackAddr s.spVal)) := by
  rw [State.push8, State.memWrite_of_not_storable v hstore]
  rfl

theorem State.pop8_of_readsAs (h : ReadsAs (s.setSp (s.spVal + 1)) (stackAddr (s.setSp (s.spVal + 1)).spVal) v) :
    s.pop8 = .ok (v, { s.setSp (s.spVal + 1) with
      draws := drawsAfterRead (s.setSp (s.spVal + 1)) (stackAddr (s.setSp (s.spVal + 1)).spVal) }) :=
  State.memRead_ok_iff.2 ⟨h, rfl⟩

theorem State.pop8_of_readStops {f : Fault}
    (h : ReadStops (s.setSp (s.spVal + 1)) (stackAddr (s.setSp (s.spVal + 1)).spVal) f) : s.pop8 = .error f :=
  State.memRead_error_iff.2 h

end

/-- Settles O21: Push8 stores and then lowers SP, Pop8 raises SP and then reads. -/
theorem pushAndPopBytes : Obligations.PushAndPopBytes := fun s v hvalid =>
  ⟨fun hstore => State.push8_of_storable hvalid hstore v, fun hstore => State.push8_of_not_storable hstore v,
    s.setSp (s.spVal + 1), rfl, State.toNat_spVal_raised hvalid, fun _ => State.pop8_of_readsAs,
    fun _ => State.pop8_of_readStops⟩

/-! ## Bytes in SRAM -/

section
variable {s t : State}

theorem stackAddr_eq (x : BitVec 16) : stackAddr x = BitVec.ofNat 24 x.toNat := by
  apply BitVec.eq_of_toNat_eq
  simp [stackAddr]

/-- A push onto SRAM. -/
theorem State.push8_ram (hvalid : s.cfg.valid = true) (hram : inRam s.cfg (BitVec.ofNat 24 s.spVal.toNat)) (v : Byte) :
    ∃ t, s.push8 v = .ok t ∧ t = { s with sp := t.sp, dm := Memory.write .data s.dm s.spVal.toNat v } ∧
      t.spVal.toNat = (s.spVal.toNat + 2 ^ s.cfg.spBits - 1) % 2 ^ s.cfg.spBits := by
  have haddr : (stackAddr s.spVal).toNat = s.spVal.toNat := BitVec.toNat_setWidth_of_le (by decide)
  rw [← stackAddr_eq] at hram
  refine ⟨(s.setDm (Memory.write .data s.dm s.spVal.toNat v)).setSp (s.spVal - 1), ?_, rfl, ?_⟩
  · rw [State.push8, State.memWrite_ram hram, haddr]
    rfl
  · rw [State.toNat_spVal_setSp]
    exact State.toNat_spVal_lowered hvalid

/-- A pop of the byte SRAM holds at `a`, where SP lies one below `a`. -/
theorem State.pop8_ram (hvalid : s.cfg.valid = true) {a : Nat} {v : Byte} (ha : a < 2 ^ s.cfg.spBits)
    (hsp : s.spVal.toNat = (a + 2 ^ s.cfg.spBits - 1) % 2 ^ s.cfg.spBits) (hram : inRam s.cfg (BitVec.ofNat 24 a))
    (hv : Memory.read .data s.dm a = some v) :
    ∃ u, s.pop8 = .ok (v, u) ∧ u = { s with sp := u.sp } ∧ u.spVal.toNat = a := by
  have hraised : (s.setSp (s.spVal + 1)).spVal.toNat = a := by
    rw [State.toNat_spVal_raised hvalid, hsp, Nat.mod_add_mod, Nat.sub_add_cancel (by omega), Nat.add_mod_right,
      Nat.mod_eq_of_lt ha]
  have haddr : stackAddr (s.setSp (s.spVal + 1)).spVal = BitVec.ofNat 24 a := by rw [stackAddr_eq, hraised]
  have hbound : a < 2 ^ 24 := lt_of_lt_of_le ha (Nat.pow_le_pow_right (by decide) (by
    have := Cfg.spBits_le hvalid
    omega))
  refine ⟨s.setSp (s.spVal + 1), ?_, rfl, hraised⟩
  rw [State.pop8, haddr, State.memRead_ram (s := s.setSp _) hram, BitVec.toNat_ofNat, Nat.mod_eq_of_lt hbound]
  exact ⟨hv, rfl⟩

/-! ## A run of bytes -/

/-- Bytes pushed one after another, the first at the highest address. -/
def State.pushBytes (s : State) : List Byte → Res State
  | [] => .ok s
  | b :: bs => s.push8 b >>= fun t => t.pushBytes bs

/-- Bytes pushed onto SRAM lie below each other, SP goes down by their number, and nothing else changes. -/
theorem State.pushBytes_ram (hvalid : s.cfg.valid = true) (bs : List Byte) (hlen : bs.length ≤ s.spVal.toNat + 1)
    (hram : ∀ k < bs.length, inRam s.cfg (BitVec.ofNat 24 (s.spVal.toNat - k))) :
    ∃ t, s.pushBytes bs = .ok t ∧ t = { s with sp := t.sp, dm := t.dm } ∧
      t.spVal.toNat = (s.spVal.toNat + 2 ^ s.cfg.spBits - bs.length) % 2 ^ s.cfg.spBits ∧
      (∀ k < bs.length, Memory.read .data t.dm (s.spVal.toNat - k) = bs[k]?) ∧
      ∀ a, (a + bs.length ≤ s.spVal.toNat ∨ s.spVal.toNat < a) →
        Memory.read .data t.dm a = Memory.read .data s.dm a := by
  induction bs generalizing s with
  | nil =>
    refine ⟨s, rfl, rfl, ?_, by simp, fun _ _ => rfl⟩
    rw [List.length_nil, Nat.sub_zero, Nat.add_mod_right, Nat.mod_eq_of_lt s.spVal_lt]
  | cons b bs ih =>
    rw [List.length_cons] at hlen hram
    obtain ⟨u, hu, hframe, hsp⟩ := State.push8_ram hvalid (hram 0 (by omega)) b
    have hlt := s.spVal_lt
    have hcfg : u.cfg = s.cfg := by rw [hframe]
    have hlow : 0 < bs.length → u.spVal.toNat = s.spVal.toNat - 1 := fun hpos => by
      rw [hsp, show s.spVal.toNat + 2 ^ s.cfg.spBits - 1 = s.spVal.toNat - 1 + 2 ^ s.cfg.spBits by omega,
        Nat.add_mod_right, Nat.mod_eq_of_lt (by omega)]
    have hram' : ∀ k < bs.length, inRam u.cfg (BitVec.ofNat 24 (u.spVal.toNat - k)) := fun k hk => by
      rw [hcfg, hlow (by omega), Nat.sub_sub, Nat.add_comm 1 k]
      exact hram (k + 1) (by omega)
    obtain ⟨t, ht, htframe, htsp, hreads, hkept⟩ := ih (s := u) (hcfg ▸ hvalid) (by omega) hram'
    have hdm : u.dm = Memory.write .data s.dm s.spVal.toNat b := by rw [hframe]
    refine ⟨t, by rw [State.pushBytes, hu]; exact ht, by rw [htframe, hframe], ?_, fun k hk => ?_, fun a ha => ?_⟩
    · rw [htsp, hcfg, List.length_cons]
      obtain hnone | hpos := Nat.eq_zero_or_pos bs.length
      · rw [hnone, Nat.sub_zero, Nat.add_mod_right, hsp, Nat.mod_mod]
      · rw [hlow hpos]
        congr 1
        omega
    · cases k with
      | zero =>
        rw [Nat.sub_zero, hkept _ (by omega), hdm, Memory.read_write_same]
        rfl
      | succ k =>
        rw [List.length_cons] at hk
        rw [show s.spVal.toNat - (k + 1) = u.spVal.toNat - k by omega, hreads k (by omega), List.getElem?_cons_succ]
    · rw [List.length_cons] at ha
      rw [hkept a (by omega), hdm, Memory.read_write_other .data s.dm b (by omega)]

end

/-! ## Return addresses -/

/-- The `n` low bytes of a return address in the order they are pushed (20_memory.md R88). -/
def addressBytes (n : Nat) (v : ProgAddr) : List Byte :=
  (List.range n).map fun k => BitVec.ofNat 8 (v.toNat / 256 ^ k)

section
variable {s t : State} {v : ProgAddr}

theorem length_addressBytes (n : Nat) (v : ProgAddr) : (addressBytes n v).length = n := by
  simp [addressBytes]

theorem getElem?_addressBytes {n k : Nat} (hk : k < n) (v : ProgAddr) :
    (addressBytes n v)[k]? = some (BitVec.ofNat 8 (v.toNat / 256 ^ k)) := by
  simp [addressBytes, hk]

theorem extractLsb'_eq_div (v : ProgAddr) (k : Nat) : v.extractLsb' (8 * k) 8 = BitVec.ofNat 8 (v.toNat / 256 ^ k) := by
  rw [BitVec.extractLsb', Nat.shiftRight_eq_div_pow, Nat.pow_mul]

theorem Cfg.pcStackBytes_eq {c : Cfg} (hvalid : c.valid = true) :
    (c.pcStackBytes = 2 ∧ c.pcBits ≤ 16) ∨ (c.pcStackBytes = 3 ∧ c.pcBits ≤ 22) := by
  obtain ⟨-, hbits, -, hbytes, -⟩ := Cfg.valid_program hvalid
  split at hbytes <;> omega

theorem Res.bind_congr {α β : Type} {r : Res α} {f g : α → Res β} (h : ∀ a, r = .ok a → f a = g a) :
    r >>= f = r >>= g := by
  cases r with
  | ok a => exact h a rfl
  | error e => rfl

/-- `PushPC` on the data stack pushes the bytes of the address, low byte first. -/
theorem State.pushPc_eq_pushBytes (hvalid : s.cfg.valid = true) (hkind : s.cfg.stackKind = .dataSpace) (v : ProgAddr) :
    s.pushPc v = s.pushBytes (addressBytes s.cfg.pcStackBytes v) := by
  have hpush : s.pushPc v = s.push8 (v.extractLsb' 0 8) >>= fun a => a.push8 (v.extractLsb' 8 8) >>= fun b =>
      if b.cfg.pcStackBytes = 3 then b.push8 (v.extractLsb' 16 8) else .ok b := by
    rw [State.pushPc, hkind]
    rfl
  have hcfg {a b : State} (ha : s.push8 (v.extractLsb' 0 8) = .ok a) (hb : a.push8 (v.extractLsb' 8 8) = .ok b) :
      b.cfg.pcStackBytes = s.cfg.pcStackBytes := by
    rw [(State.push8_kept hb).1, (State.push8_kept ha).1]
  have hbyte := fun k => (extractLsb'_eq_div v k).symm
  obtain ⟨hbytes, -⟩ | ⟨hbytes, -⟩ := Cfg.pcStackBytes_eq hvalid
  · have hrun : s.pushBytes (addressBytes s.cfg.pcStackBytes v) = s.push8 (v.extractLsb' 0 8) >>= fun a =>
        a.push8 (v.extractLsb' 8 8) >>= fun b => .ok b := by
      simp only [hbytes, addressBytes, List.range_succ, hbyte]
      rfl
    rw [hpush, hrun]
    refine Res.bind_congr fun a ha => Res.bind_congr fun b hb => if_neg ?_
    rw [hcfg ha hb, hbytes]
    decide
  · have hrun : s.pushBytes (addressBytes s.cfg.pcStackBytes v) = s.push8 (v.extractLsb' 0 8) >>= fun a =>
        a.push8 (v.extractLsb' 8 8) >>= fun b => b.push8 (v.extractLsb' 16 8) >>= fun t => .ok t := by
      simp only [hbytes, addressBytes, List.range_succ, hbyte]
      rfl
    rw [hpush, hrun]
    refine Res.bind_congr fun a ha => Res.bind_congr fun b hb => ?_
    rw [hcfg ha hb, hbytes, if_pos rfl]
    cases b.push8 (v.extractLsb' 16 8) <;> rfl

/-- The bytes of an address give it back, cut to PC_BITS bits. -/
theorem truncPc_bytes {c : Cfg} {b0 b1 b2 : Byte} (hv : v.toNat < 2 ^ c.pcBits)
    (h : (b2.toNat * 256 + b1.toNat) * 256 + b0.toNat = v.toNat) :
    truncPc c ((b2 ++ b1 ++ b0).setWidth 22) = v := by
  have hval : ((b2 ++ b1 ++ b0).setWidth 22 : ProgAddr) = v := by
    apply BitVec.eq_of_toNat_eq
    rw [BitVec.toNat_setWidth, toNat_append_eq_mul_add, toNat_append_eq_mul_add]
    omega
  rw [hval]
  exact lowBits_of_lt hv

/-- A return address lies in SRAM with its low byte at `top`, and SP is below it. -/
structure Holds (s : State) (top : Nat) (v : ProgAddr) : Prop where
  top_lt : top < 2 ^ s.cfg.spBits
  low_le : s.cfg.pcStackBytes ≤ top + 1
  ram : ∀ k < s.cfg.pcStackBytes, inRam s.cfg (BitVec.ofNat 24 (top - k))
  bytes : ∀ k < s.cfg.pcStackBytes, Memory.read .data s.dm (top - k) = some (BitVec.ofNat 8 (v.toNat / 256 ^ k))

/-- Byte `k` of the address is popped where SP lies one below it. -/
theorem Holds.pop8 {top k : Nat} {w : State} (h : Holds s top v) (hvalid : s.cfg.valid = true)
    (hw : w = { s with sp := w.sp }) (hk : k < s.cfg.pcStackBytes)
    (hsp : w.spVal.toNat = (top + 2 ^ s.cfg.spBits - (k + 1)) % 2 ^ s.cfg.spBits) :
    ∃ u, w.pop8 = .ok (BitVec.ofNat 8 (v.toNat / 256 ^ k), u) ∧ u = { s with sp := u.sp } ∧
      u.spVal.toNat = (top + 2 ^ s.cfg.spBits - k) % 2 ^ s.cfg.spBits := by
  have htop := h.top_lt
  have hlow := h.low_le
  have hcfg : w.cfg = s.cfg := by rw [hw]
  have hdm : w.dm = s.dm := by rw [hw]
  have hat : top - k + 2 ^ s.cfg.spBits = top + 2 ^ s.cfg.spBits - k := by omega
  obtain ⟨u, hu, hframe, husp⟩ := State.pop8_ram (s := w) (a := top - k) (hcfg ▸ hvalid) (by rw [hcfg]; omega)
    (by rw [hsp, hcfg, hat, Nat.sub_sub]) (hcfg ▸ h.ram k hk) (hdm ▸ h.bytes k hk)
  refine ⟨u, hu, by rw [hframe, hw], ?_⟩
  rw [husp, ← hat, Nat.add_mod_right, Nat.mod_eq_of_lt (by omega)]

/-- The address is popped, and SP is raised to its low byte. -/
theorem Holds.popPc {top : Nat} (h : Holds s top v) (hvalid : s.cfg.valid = true) (hkind : s.cfg.stackKind = .dataSpace)
    (hv : v.toNat < 2 ^ s.cfg.pcBits)
    (hsp : s.spVal.toNat = (top + 2 ^ s.cfg.spBits - s.cfg.pcStackBytes) % 2 ^ s.cfg.spBits) :
    ∃ u, s.popPc = .ok (v, u) ∧ u.spVal.toNat = top ∧ u = { s with sp := u.sp } := by
  have hpopTop : 2 ≤ s.cfg.pcStackBytes ∧ ∃ w, s.popTop = .ok (BitVec.ofNat 8 (v.toNat / 256 ^ 2), w) ∧
      w = { s with sp := w.sp } ∧ w.spVal.toNat = (top + 2 ^ s.cfg.spBits - 2) % 2 ^ s.cfg.spBits := by
    obtain ⟨hbytes, hbits⟩ | ⟨hbytes, -⟩ := Cfg.pcStackBytes_eq hvalid
    · have hsmall : v.toNat / 256 ^ 2 = 0 :=
        Nat.div_eq_of_lt (lt_of_lt_of_le hv (Nat.pow_le_pow_right (by decide) hbits))
      refine ⟨by omega, s, ?_, rfl, hbytes ▸ hsp⟩
      rw [State.popTop, hbytes, if_neg (by decide), hsmall]
      rfl
    · rw [State.popTop, if_pos hbytes]
      exact ⟨by omega, h.pop8 hvalid rfl (by omega) (by rw [hsp, hbytes])⟩
  obtain ⟨hbytes, a, ha, haframe, hasp⟩ := hpopTop
  obtain ⟨b, hb, hbframe, hbsp⟩ := h.pop8 (k := 1) hvalid haframe (by omega) hasp
  obtain ⟨u, hu, huframe, husp⟩ := h.pop8 (k := 0) hvalid hbframe (by omega) hbsp
  have htop : u.spVal.toNat = top := by
    rw [husp, Nat.sub_zero, Nat.add_mod_right, Nat.mod_eq_of_lt h.top_lt]
  have hcfg : u.cfg = s.cfg := by rw [huframe]
  refine ⟨u, ?_, htop, huframe⟩
  simp only [State.popPc_data s hkind, ha, hb, hu, bind, Except.bind, hcfg]
  rw [truncPc_bytes hv]
  simp only [BitVec.toNat_ofNat]
  omega

end

/-- Settles O22: the bytes go to SRAM in order, and are popped in the reverse order. -/
theorem pushAndPopReturnAddress : Obligations.PushAndPopReturnAddress := by
  intro s v hvalid hv
  refine ⟨fun hkind hlow hram => ?_, fun hkind => ⟨fun hlen => ?_, fun hlen => ?_, fun hempty => ?_⟩⟩
  · have hlen := length_addressBytes s.cfg.pcStackBytes v
    obtain ⟨t, ht, hframe, hsp, hreads, hkept⟩ :=
      State.pushBytes_ram hvalid (addressBytes s.cfg.pcStackBytes v) (by omega) (by rwa [hlen])
    rw [hlen] at hsp hreads hkept
    have hcfg : t.cfg = s.cfg := by rw [hframe]
    have hbytes : ∀ k < s.cfg.pcStackBytes,
        Memory.read .data t.dm (s.spVal.toNat - k) = some (BitVec.ofNat 8 (v.toNat / 256 ^ k)) := fun k hk => by
      rw [hreads k hk, getElem?_addressBytes hk]
    have hholds : Holds t s.spVal.toNat v := by
      rw [← hcfg] at hlow hram hbytes
      exact ⟨hcfg ▸ s.spVal_lt, hlow, hram, hbytes⟩
    obtain ⟨u, hu, husp, huframe⟩ := hholds.popPc (hcfg ▸ hvalid) (hcfg ▸ hkind) (hcfg ▸ hv) (hcfg ▸ hsp)
    refine ⟨t, by rw [State.pushPc_eq_pushBytes hvalid hkind, ht], hframe, hsp, hbytes, hkept, u, hu,
      BitVec.eq_of_toNat_eq husp, huframe⟩
  · refine ⟨s.setHwStack (v :: s.hwStack), ?_, rfl, ?_⟩
    · rw [State.pushPc_hardware v hkind, if_neg (by omega)]
    · rw [State.popPc, State.setHwStack_cfg, hkind]
      rfl
  · rw [State.pushPc_hardware v hkind, if_pos hlen]
  · rw [State.popPc, hkind, hempty]

end Sys2Proof.Machine

/-! PROOFS. The arithmetic and logic of 40_arithmetic.md on bytes: results, flags and frames. -/

namespace Sys2Proof.Machine

/-! ## Ends of one-word instructions -/

section
variable (s : State)

theorem State.finishFlags_onlySregPc (sr : Byte) : OnlySregPc s (s.finishFlags sr) := ⟨fun _ => ⟨rfl, rfl⟩, rfl⟩

theorem State.finishPair_pairResult (p : Reg) (v : BitVec 16) (sr : Byte) : PairResult s (s.finishPair p v sr) p := by
  have hkept : RegsKept s (s.finishPair p v sr) [p, p + 1] := fun x hx => by
    rw [State.finishPair_reg, State.reg_setPair]
    simp_all
  exact ⟨⟨fun _ => ⟨rfl, rfl⟩, rfl⟩, hkept, rfl⟩

theorem State.finishPair_pair_self (p : Reg) (v : BitVec 16) (sr : Byte) : (s.finishPair p v sr).pair p = v :=
  s.pair_setPair p v

end

/-! ## Flags -/

section
variable {sr : Byte} {h v n z c s' v' n' z' c' : Bool}

/-- SREG with H kept, each flag given as the statement says it. -/
theorem flagsAre_writeVNZC (hv : v = v') (hn : n = n') (hz : z = z') (hc : c = c') (hs : (n' ^^ v') = s') :
    FlagsAre (writeVNZC sr v n z c) (flagI sr) (flagT sr) (flagH sr) s' v' n' z' c' := by
  subst hv hn hz hc hs
  exact flagsAre_writeHVNZC ..

/-- SREG with H and C kept. -/
theorem flagsAre_writeVNZ (hv : v = v') (hn : n = n') (hz : z = z') :
    FlagsAre (writeVNZ sr v n z) (flagI sr) (flagT sr) (flagH sr) (n' ^^ v') v' n' z' (flagC sr) :=
  flagsAre_writeVNZC hv hn hz rfl rfl

theorem flagsAre_writeZC (hz : z = z') (hc : c = c') :
    FlagsAre (writeZC sr z c) (flagI sr) (flagT sr) (flagH sr) (flagS sr) (flagV sr) (flagN sr) z' c' := by
  subst hz hc
  simp [FlagsAre, writeZC]

end

/-! ## Sums and differences -/

/-- Settles O27: the result and flags of `AddFlags8`. -/
theorem addResults : Obligations.AddResults := by
  refine fun d r s => ⟨fun h => ⟨_, exec_add h, s.finish_regResult .., ?_⟩,
    fun h => ⟨_, exec_adc h, s.finish_regResult .., ?_⟩⟩ <;>
  · rw [State.finish_reg_self]
    exact sumOf_addFlags8 ..

/-- Settles O28: the result and flags of `SubFlags8`. -/
theorem subtractResults : Obligations.SubtractResults := by
  refine fun d r k s => ⟨fun h => ⟨_, whenPresent_present h, s.finish_regResult .., ?_⟩,
    fun h => ⟨_, whenPresent_present h, s.finish_regResult .., ?_⟩, ⟨_, rfl, s.finish_regResult .., ?_⟩,
    ⟨_, rfl, s.finish_regResult .., ?_⟩⟩ <;>
  · rw [State.finish_reg_self]
    exact differenceOf_subFlags8 ..

/-- Settles O29: the flags of the subtractions, whose result is dropped. -/
theorem compareResults : Obligations.CompareResults := fun _ _ _ s =>
  ⟨fun h => ⟨_, _, whenPresent_present h, s.finishFlags_onlySregPc _, rfl, differenceOf_subFlags8 ..⟩,
    fun h => ⟨_, _, whenPresent_present h, s.finishFlags_onlySregPc _, rfl, differenceOf_subFlags8 ..⟩,
    ⟨_, _, rfl, s.finishFlags_onlySregPc _, rfl, differenceOf_subFlags8 ..⟩⟩

/-- NEG borrows unless the byte is 0, and overflows for -128 alone (40_arithmetic.md R175). -/
theorem negate_flags (sr a : Byte) :
    flagC (subFlags8 sr 0 a false false) = decide (sub8 0 a false ≠ 0) ∧
    flagV (subFlags8 sr 0 a false false) = decide (sub8 0 a false = 0x80) := by
  obtain ⟨-, -, -, -, -, hV, -, -, hC⟩ := differenceOf_subFlags8 sr 0 a false false
  have hneg : sub8 0 a false = -a := by simp [sub8]
  have ha := a.isLt
  rw [hC, hV, hneg]
  refine ⟨decide_eq_decide.2 ?_, ?_⟩
  · rw [ne_eq, neg_eq_zero, BitVec.toNat_eq]
    simp [Nat.pos_iff_ne_zero]
  · rw [overflows8, ← Bool.decide_or, decide_eq_decide, neg_eq_iff_eq_neg, BitVec.toNat_eq,
      BitVec.toInt_eq_toNat_cond a]
    simp
    split <;> omega

/-- Settles O30: NEG is a difference from 0; COM clears V, sets C, and keeps H. -/
theorem complementResults : Obligations.ComplementResults := by
  refine fun d s => ⟨fun h => ⟨_, whenPresent_present h, s.finish_regResult .., ?_⟩,
    fun h => ⟨_, whenPresent_present h, s.finish_regResult .., ?_⟩⟩
  · rw [State.finish_reg_self]
    exact ⟨differenceOf_subFlags8 .., negate_flags ..⟩
  · have ha := (s.reg d).isLt
    have hval : (0xFF - s.reg d : Byte).toNat = 255 - (s.reg d).toNat := by bv_omega
    rw [State.finish_reg_self]
    refine ⟨hval, flagsAre_writeVNZC rfl rfl ?_ rfl (Bool.xor_false _)⟩
    rw [beq_zero_byte, hval, decide_eq_decide]
    omega

/-- Settles O31: each result bit by bit, and the flags of `LogicFlags8`. -/
theorem logicResults : Obligations.LogicResults := by
  refine fun d r k s => ⟨fun h => ⟨_, exec_and h, s.finish_regResult .., ?_⟩,
    fun h => ⟨_, whenPresent_present h, s.finish_regResult .., ?_⟩,
    fun h => ⟨_, exec_eor h, s.finish_regResult .., ?_⟩, ⟨_, rfl, s.finish_regResult .., ?_⟩,
    ⟨_, rfl, s.finish_regResult .., ?_⟩⟩ <;> rw [State.finish_reg_self]
  · exact ⟨fun _ => BitVec.getLsbD_and, logicFlagsOf_logicFlags8 ..⟩
  · exact ⟨fun _ => BitVec.getLsbD_or, logicFlagsOf_logicFlags8 ..⟩
  · exact ⟨fun _ => BitVec.getLsbD_xor, logicFlagsOf_logicFlags8 ..⟩
  · exact ⟨fun _ => BitVec.getLsbD_and, logicFlagsOf_logicFlags8 ..⟩
  · exact ⟨fun _ => BitVec.getLsbD_or, logicFlagsOf_logicFlags8 ..⟩

theorem overflows8_succ (a : Byte) : (a + 1 == 0x80) = overflows8 (a.toInt + 1) := by
  have ha := a.isLt
  rw [overflows8, ← Bool.decide_or, BitVec.toInt_eq_toNat_cond]
  refine decide_eq_decide.2 ?_
  rw [BitVec.toNat_eq]
  simp
  split <;> omega

theorem overflows8_pred (a : Byte) : (a - 1 == 0x7F) = overflows8 (a.toInt - 1) := by
  have ha := a.isLt
  rw [overflows8, ← Bool.decide_or, BitVec.toInt_eq_toNat_cond]
  refine decide_eq_decide.2 ?_
  rw [BitVec.toNat_eq]
  simp [BitVec.toNat_sub]
  split <;> omega

/-- Settles O32: one more and one less, with overflow at 127 and at -128. -/
theorem incrementResults : Obligations.IncrementResults := by
  refine fun d s => ⟨fun h => ⟨_, whenPresent_present h, s.finish_regResult .., ?_⟩,
    fun h => ⟨_, whenPresent_present h, s.finish_regResult .., ?_⟩⟩ <;> rw [State.finish_reg_self]
  · have hval : (s.reg d + 1).toNat = ((s.reg d).toNat + 1) % 256 := BitVec.toNat_add ..
    refine ⟨hval, flagsAre_writeVNZ (overflows8_succ _) rfl ?_⟩
    rw [beq_zero_byte, hval, decide_eq_decide]
    omega
  · have hval : (s.reg d - 1).toNat = ((s.reg d).toNat + 255) % 256 := by bv_omega
    refine ⟨hval, flagsAre_writeVNZ (overflows8_pred _) rfl ?_⟩
    rw [beq_zero_byte, hval, decide_eq_decide]
    omega

/-! ## Words -/

theorem getLsbD_fifteen (v : BitVec 16) : v.getLsbD 15 = decide (32768 ≤ v.toNat) := BitVec.msb_eq_decide v

theorem beq_zero_word (v : BitVec 16) : (v == 0) = decide (v.toNat = 0) :=
  decide_eq_decide.2 (by simp [BitVec.toNat_eq])

theorem toInt_eq_word (v : BitVec 16) : v.toInt = if 32768 ≤ v.toNat then (v.toNat : Int) - 65536 else v.toNat := by
  have := v.isLt
  rw [BitVec.toInt_eq_toNat_cond]
  split <;> split <;> omega

/-- Settles O33: a 6-bit constant carries or borrows where the top bit falls or rises, and overflows the other way. -/
theorem wordResults : Obligations.WordResults := by
  refine fun d k s h => ⟨⟨_, whenPresent_present (i := .adiw d k) h, s.finishPair_pairResult .., ?_⟩,
    ⟨_, whenPresent_present (i := .sbiw d k) h, s.finishPair_pairResult .., ?_⟩⟩ <;>
    rw [State.finishPair_pair_self] <;> generalize s.pair d = a <;>
    have ha := a.isLt <;> have hk := k.isLt
  · have hval : (a + k.setWidth 16).toNat = (a.toNat + k.toNat) % 65536 := by simp [BitVec.toNat_add]
    refine ⟨hval, flagsAre_writeVNZC ?_ (getLsbD_fifteen _) (beq_zero_word _) ?_ rfl⟩
    · rw [getLsbD_fifteen, getLsbD_fifteen, overflows16, toInt_eq_word]
      grind
    · rw [getLsbD_fifteen, getLsbD_fifteen]
      grind
  · have hval : ((a - k.setWidth 16).toNat : Int) = (a.toNat - k.toNat : Int) % 65536 := by
      simp [BitVec.toNat_sub]
      omega
    refine ⟨hval, flagsAre_writeVNZC ?_ (getLsbD_fifteen _) (beq_zero_word _) ?_ rfl⟩
    · rw [getLsbD_fifteen, getLsbD_fifteen, overflows16, toInt_eq_word]
      grind
    · rw [getLsbD_fifteen, getLsbD_fifteen]
      grind

end Sys2Proof.Machine

/-! PROOFS. The products of 40_arithmetic.md section 7, and 41_bit_and_others.md: shifts, bits, the system instructions;
with them the moves of 42_transfer.md section 1. -/

namespace Sys2Proof.Machine

/-! ## Products -/

/-- An operand of a multiply as a number. -/
def operandValue (signed : Bool) (b : Byte) : Int := if signed then b.toInt else b.toNat

theorem operandValue_range (signed : Bool) (b : Byte) :
    -128 ≤ operandValue signed b ∧ operandValue signed b ≤ if signed then 127 else 255 := by
  have hb := b.isLt
  cases signed with
  | true =>
    have hlow := b.le_toInt
    have hhigh := b.toInt_le
    exact ⟨hlow, hhigh⟩
  | false =>
    simp only [operandValue, Bool.false_eq_true, if_false]
    omega

section
variable (signedD signedR : Bool) (a b : Byte)

theorem product_eq : product signedD signedR a b =
    BitVec.ofInt 16 (operandValue signedD a * operandValue signedR b) := by
  have hextend (signed : Bool) (x : Byte) :
      (if signed then x.signExtend 16 else x.setWidth 16) = BitVec.ofInt 16 (operandValue signed x) := by
    cases signed with
    | true => rfl
    | false => rw [operandValue, if_neg (by decide), if_neg (by decide), BitVec.ofInt_natCast, BitVec.ofNat_toNat]
  rw [product, hextend, hextend, ← BitVec.ofInt_mul]

/-- The product in 16 bits. -/
theorem toNat_product : ((product signedD signedR a b).toNat : Int) =
    operandValue signedD a * operandValue signedR b % 65536 := by
  rw [product_eq, BitVec.toNat_ofInt, Int.toNat_of_nonneg (Int.emod_nonneg _ (by decide))]
  rfl

/-- A product with a signed operand fits in 16 signed bits. -/
theorem toInt_product : (product true signedR a b).toInt = operandValue true a * operandValue signedR b := by
  obtain ⟨ha0, ha1⟩ := operandValue_range true a
  rw [if_pos rfl] at ha1
  obtain ⟨hb0, hb1⟩ := operandValue_range signedR b
  have hval := toNat_product true signedR a b
  have hb1 : operandValue signedR b ≤ 255 := hb1.trans (by split <;> decide)
  have hlow : -32768 ≤ operandValue true a * operandValue signedR b := by
    nlinarith
  have hhigh : operandValue true a * operandValue signedR b ≤ 32767 := by
    nlinarith
  rw [toInt_eq_word]
  split <;> omega

end

theorem toInt_neg_iff_word (v : BitVec 16) : decide (v.toInt < 0) = v.getLsbD 15 := by
  have := v.isLt
  rw [getLsbD_fifteen, decide_eq_decide, toInt_eq_word]
  split <;> omega

/-- What a product leaves, whatever its operands. -/
theorem State.finishProduct_flags (s : State) (p : BitVec 16) :
    FlagsAre (s.finishProduct p).sreg (flagI s.sreg) (flagT s.sreg) (flagH s.sreg) (flagS s.sreg) (flagV s.sreg)
      (flagN s.sreg) (decide (p.toNat = 0)) (p.getLsbD 15) :=
  flagsAre_writeZC (beq_zero_word p) rfl

/-- Settles O34: the product fits in 16 bits, read as its operands are. -/
theorem productResults : Obligations.ProductResults := by
  refine fun d r s => ⟨fun h => ⟨_, whenPresent_present h, s.finishPair_pairResult .., ?_⟩,
    fun h => ⟨_, whenPresent_present (i := .muls d r) h, s.finishPair_pairResult .., ?_⟩,
    fun h => ⟨_, whenPresent_present (i := .mulsu d r) h, s.finishPair_pairResult .., ?_⟩⟩ <;>
    rw [State.finishProduct, State.finishPair_pair_self]
  · have hval := toNat_product false false (s.reg d) (s.reg r)
    have hlt : (s.reg d).toNat * (s.reg r).toNat < 65536 :=
      Nat.mul_lt_mul'' (s.reg d).isLt (s.reg r).isLt
    refine ⟨?_, getLsbD_fifteen (product false false (s.reg d) (s.reg r)) ▸ s.finishProduct_flags _⟩
    simp only [operandValue, Bool.false_eq_true, if_false] at hval
    omega
  · exact ⟨toInt_product .., toInt_neg_iff_word _ ▸ s.finishProduct_flags _⟩
  · exact ⟨toInt_product .., toInt_neg_iff_word _ ▸ s.finishProduct_flags _⟩

theorem State.finishFraction_result {s : State} {i : Instr} {signedD signedR : Bool} {a b : Byte}
    (h : exec i s = .next (s.finishFraction (product signedD signedR a b))) :
    ∃ t, exec i s = .next t ∧ PairResult s t 0 ∧
      ((t.pair 0).toNat : Int) = (2 * (operandValue signedD a * operandValue signedR b)) % 65536 ∧
      FlagsAre t.sreg (flagI s.sreg) (flagT s.sreg) (flagH s.sreg) (flagS s.sreg) (flagV s.sreg) (flagN s.sreg)
        (decide ((t.pair 0).toNat = 0))
        (decide (32768 ≤ operandValue signedD a * operandValue signedR b % 65536)) := by
  have hval := toNat_product signedD signedR a b
  refine ⟨_, h, s.finishPair_pairResult .., ?_⟩
  rw [State.finishFraction, State.finishPair_pair_self]
  refine ⟨?_, flagsAre_writeZC (beq_zero_word _) ?_⟩
  · rw [BitVec.toNat_shiftLeft, Nat.shiftLeft_eq]
    omega
  · rw [getLsbD_fifteen, ← hval]
    exact decide_eq_decide.2 (by omega)

/-- Settles O35: twice the product, whose top bit goes to C. -/
theorem fractionResults : Obligations.FractionResults := fun d r _ h =>
  ⟨State.finishFraction_result (signedD := false) (signedR := false) (whenPresent_present (i := .fmul d r) h),
    State.finishFraction_result (signedD := true) (signedR := true) (whenPresent_present (i := .fmuls d r) h),
    State.finishFraction_result (signedD := true) (signedR := false) (whenPresent_present (i := .fmulsu d r) h)⟩

/-! ## Shifts (41_bit_and_others.md section 1) -/

section
variable {sr a v : Byte} {n' : Bool}

/-- The flags of a shift to the right: C is the bit shifted out, V = N xor C. -/
theorem flagsAre_shiftFlags (hn : v.getLsbD 7 = n') :
    FlagsAre (shiftFlags sr a v) (flagI sr) (flagT sr) (flagH sr) (n' ^^ (n' ^^ decide (a.toNat % 2 = 1)))
      (n' ^^ decide (a.toNat % 2 = 1)) n' (decide (v.toNat = 0)) (decide (a.toNat % 2 = 1)) := by
  have hodd : a.getLsbD 0 = decide (a.toNat % 2 = 1) := by
    rw [BitVec.getLsbD, Nat.testBit_zero]
  exact flagsAre_writeVNZC (by rw [hn, hodd]) hn (beq_zero_byte v) hodd rfl

/-- The seven high bits of a byte under a new top bit. -/
theorem toNat_shiftIn (x : Bool) (a : Byte) :
    (BitVec.ofBool x ++ a.extractLsb' 1 7 : Byte).toNat = a.toNat / 2 + if x then 128 else 0 := by
  have ha := a.isLt
  rw [toNat_append_eq_mul_add, BitVec.extractLsb'_toNat, Nat.shiftRight_eq_div_pow]
  cases x <;> (simp; omega)

theorem getLsbD_seven_shiftIn (x : Bool) (a : Byte) :
    (BitVec.ofBool x ++ a.extractLsb' 1 7 : Byte).getLsbD 7 = x := by
  have ha := a.isLt
  rw [getLsbD_seven, toNat_shiftIn]
  cases x with
  | true => simp
  | false => simp; omega

/-- The top bit kept is the bit shifted in (R222). -/
theorem extract_seven (a : Byte) : a.extractLsb' 7 1 = BitVec.ofBool (a.getLsbD 7) := by
  apply BitVec.eq_of_getLsbD_eq
  intro i hi
  obtain rfl : i = 0 := by omega
  simp

end

theorem toInt_eq_byte (v : Byte) : v.toInt = if v.getLsbD 7 then (v.toNat : Int) - 256 else v.toNat := by
  rw [getLsbD_seven, BitVec.toInt_eq_toNat_cond]
  simp only [decide_eq_true_eq]
  split <;> split <;> omega

theorem bitOf_seven (v : Byte) : bitOf v 7 = v.getLsbD 7 := rfl

theorem toInt_neg_iff_byte (v : Byte) : decide (v.toInt < 0) = v.getLsbD 7 := by
  have := v.isLt
  rw [toInt_eq_byte]
  cases v.getLsbD 7 <;> simp
  omega

/-- Settles O38: each shift is a bit shifted in at the top; SWAP joins the nibbles the other way. -/
theorem shiftResults : Obligations.ShiftResults := by
  refine fun d s => ⟨fun h => ⟨_, whenPresent_present h, s.finish_regResult .., ?_⟩,
    fun h => ⟨_, whenPresent_present h, s.finish_regResult .., ?_⟩,
    fun h => ⟨_, whenPresent_present h, s.finish_regResult .., ?_⟩,
    fun h => ⟨_, whenPresent_present h, s.finish_regResult (sr := s.sreg) .., ?_, rfl⟩⟩
  · have htop : (s.reg d >>> 1).getLsbD 7 = false := by simp
    have hflags := flagsAre_shiftFlags (sr := s.sreg) (a := s.reg d) htop
    rw [State.finish_reg_self]
    rw [Bool.false_xor, Bool.false_xor] at hflags
    exact ⟨by rw [BitVec.toNat_ushiftRight, Nat.shiftRight_eq_div_pow], hflags⟩
  · rw [State.finish_reg_self]
    exact ⟨toNat_shiftIn .., flagsAre_shiftFlags (getLsbD_seven_shiftIn ..)⟩
  · have ha := (s.reg d).isLt
    have htop := getLsbD_seven_shiftIn ((s.reg d).getLsbD 7) (s.reg d)
    rw [State.finish_reg_self, toInt_neg_iff_byte]
    dsimp only
    rw [extract_seven, bitOf_seven, htop]
    refine ⟨?_, flagsAre_shiftFlags htop⟩
    rw [toInt_eq_byte, toInt_eq_byte, htop, toNat_shiftIn]
    split <;> omega
  · have hreg := s.finish_reg_self d ((s.reg d).extractLsb' 0 4 ++ (s.reg d).extractLsb' 4 4) s.sreg
    refine (congrArg BitVec.toNat hreg).trans ?_
    rw [toNat_append_eq_mul_add, BitVec.extractLsb'_toNat, BitVec.extractLsb'_toNat, Nat.shiftRight_eq_div_pow]
    have ha := (s.reg d).isLt
    simp
    omega

/-! ## Bits (41_bit_and_others.md sections 2 to 4) -/

theorem bitOf_withBit_true (v : Byte) (b y : BitVec 3) : bitOf (withBit v b true) y = (y = b || bitOf v y) := by
  rw [bitOf_withBit]
  by_cases hy : y = b <;> simp [hy]

theorem bitOf_withBit_false (v : Byte) (b y : BitVec 3) : bitOf (withBit v b false) y = (y ≠ b && bitOf v y) := by
  rw [bitOf_withBit]
  by_cases hy : y = b <;> simp [hy]

theorem exec_bset (b : BitVec 3) (s : State) : exec (.bset b) s = .next { s with
    sreg := withBit s.sreg b true, pc := s.pcPlus 1, irqInhibit := s.irqInhibit || b = 7 } := by
  have hold (t : State) : (if b = bitI then t.setIrqInhibit true else t) =
      { t with irqInhibit := t.irqInhibit || decide (b = 7) } := by
    split
    case isTrue hb =>
      have hb : b = 7 := hb
      rw [decide_eq_true hb, Bool.or_true]
      rfl
    case isFalse hb =>
      have hb : b ≠ 7 := hb
      rw [decide_eq_false hb, Bool.or_false]
  exact congrArg (fun t => Host.Outcome.next (t.advance 1)) (hold (s.setSreg (withBit s.sreg b true)))

/-- Settles O39: one bit replaced; SEI starts the hold-off. -/
theorem statusBitResults : Obligations.StatusBitResults := fun b s =>
  ⟨⟨_, exec_bset b s, bitOf_withBit_true _ b, fun _ => ⟨rfl, rfl⟩, rfl, rfl⟩,
    ⟨_, rfl, bitOf_withBit_false _ b, ⟨fun _ => ⟨rfl, rfl⟩, rfl⟩, rfl⟩⟩

/-- Settles O40: T is bit 6 of SREG. -/
theorem bitCopyResults : Obligations.BitCopyResults := by
  refine fun d b s => ⟨fun h => ⟨_, whenPresent_present h, ⟨fun _ => ⟨rfl, rfl⟩, rfl⟩, rfl, fun x => ?_⟩,
    fun h => ⟨_, whenPresent_present h, s.finish_regResult (sr := s.sreg) .., rfl, fun x => ?_⟩⟩
  · exact bitOf_withBit ..
  · refine (congrArg (bitOf · x) (s.finish_reg_self d _ s.sreg)).trans ?_
    exact bitOf_withBit ..

/-- SBI and CBI address the platform's registers only (41_bit_and_others.md R230, R231). -/
theorem ioTarget_low (c : Cfg) (a : BitVec 5) : ioTarget c (a.setWidth 6) = none := by
  have hreg : ∀ a : BitVec 5, cpuRegAt (a.setWidth 6) = none := by decide
  rw [ioTarget, hreg, Option.filter_none]

/-- One read and one write of the platform's byte, with a bit replaced. -/
theorem State.ioBit_eq (s : State) (a : BitVec 5) (b : BitVec 3) (x : Bool) :
    let addr : DataAddr := BitVec.ofNat 24 (s.cfg.ioBase + a.toNat)
    let byte := s.ioRead (a.setWidth 6)
    (byte.2.ioWrite (a.setWidth 6) (withBit byte.1 b x)).advance 1 = { s with
      pc := s.pcPlus 1, draws := s.draws + 1,
      trace := .write addr (withBit (Config.platformByte s.draws addr.toNat) b x) :: s.trace } := by
  intro addr byte
  have haddr : ioDataAddr s.cfg (a.setWidth 6) = addr := by
    have ha := a.isLt
    rw [ioDataAddr, BitVec.toNat_setWidth, Nat.mod_eq_of_lt (by omega)]
  have hread : byte = s.platformRead addr := by
    rw [← haddr]
    simp only [byte, State.ioRead, ioTarget_low]
  rw [hread]
  simp only [State.ioWrite, ioTarget_low, State.platformRead, haddr]
  rfl

/-- Settles O41: the address is the platform's, whose byte is read once and written once. -/
theorem ioBitResults : Obligations.IoBitResults := fun a b s =>
  ⟨⟨_, _, congrArg Host.Outcome.next (s.ioBit_eq a b true), bitOf_withBit_true _ b,
      fun _ => ⟨rfl, rfl⟩, rfl, rfl⟩,
    ⟨_, _, congrArg Host.Outcome.next (s.ioBit_eq a b false), bitOf_withBit_false _ b,
      fun _ => ⟨rfl, rfl⟩, rfl, rfl⟩⟩

theorem exec_sleep (s : State) : exec .sleep s = .next { s with
    pc := s.pcPlus 1, sleeping := s.sleeping || s.cfg.sleepEnabled } := by
  refine congrArg Host.Outcome.next ?_
  cases h : s.cfg.sleepEnabled with
  | true => simp [State.advance, State.setPc, State.setSleeping, State.pcPlus]
  | false => simp [State.advance, State.setPc]

/-- Settles O42: the next pc, the sleeping core, the event. -/
theorem systemResults : Obligations.SystemResults := fun s =>
  ⟨⟨_, rfl, ⟨fun _ => ⟨rfl, rfl⟩, rfl⟩, rfl⟩, ⟨_, exec_sleep s, fun _ => ⟨rfl, rfl⟩, rfl, rfl⟩,
    ⟨_, rfl, fun _ => ⟨rfl, rfl⟩, rfl, rfl⟩⟩

/-! ## Moves (42_transfer.md section 1) -/

/-- Settles O43: a register, a pair of registers, a constant. -/
theorem moveResults : Obligations.MoveResults := by
  refine fun d r k s => ⟨fun h => ⟨_, whenPresent_present h, s.finish_regResult (sr := s.sreg) .., ?_, rfl⟩,
    fun h => ⟨_, whenPresent_present (i := .movw d r) h, s.finishPair_pairResult (sr := s.sreg) .., ?_, ?_, rfl⟩,
    ⟨_, exec_ldi _ _ s, s.finish_regResult .., s.finish_reg_self .., rfl⟩⟩
  · exact s.finish_reg_self d _ s.sreg
  · have hne : d ≠ d + 1 := by bv_omega
    refine (s.reg_setPair d d _).trans ?_
    rw [if_neg hne, if_pos rfl, State.pair, lowByte_append]
  · refine (s.reg_setPair d (d + 1) _).trans ?_
    rw [if_pos rfl, State.pair, highByte_append]

end Sys2Proof.Machine

/-! PROOFS. The loads and stores of 42_transfer.md: each form is one of a few bodies, and each body's result, frame and
stops are proved once. -/

namespace Sys2Proof.Machine

section
variable {s : State} {i : Instr} {d : Reg} {x : DataAddr}

/-! ## Loads and stores at an address -/

theorem State.memRead_of_readsAs {addr : DataAddr} {v : Byte} (h : ReadsAs s addr v) :
    s.memRead addr = .ok (v, { s with draws := drawsAfterRead s addr }) :=
  State.memRead_ok_iff.2 ⟨h, rfl⟩

theorem State.memRead_of_readStops {addr : DataAddr} {f : Fault} (h : ReadStops s addr f) : s.memRead addr = .error f :=
  State.memRead_error_iff.2 h

/-- The register takes the byte read, and the pc passes the instruction. -/
theorem loaded_of_read (s : State) (d : Reg) (addr : DataAddr) (v : Byte) (n : Nat) :
    Loaded s ((State.setReg { s with draws := drawsAfterRead s addr } d v).advance n) d addr v :=
  have hkept : RegsKept s ((State.setReg { s with draws := drawsAfterRead s addr } d v).advance n) [d] := fun _ hx =>
    State.reg_setReg_other _ v (List.ne_of_not_mem_cons hx)
  ⟨State.reg_setReg_same _ d v, hkept, fun _ => ⟨rfl, rfl⟩, rfl⟩

/-- What `loadFrom` does where it is the body of an instruction of `n` words. -/
theorem loadFrom_result {n : Nat}
    (h : exec i s = Res.toOutcome ((s.loadFrom d x).map fun t => t.advance n)) :
    (∀ v, ReadsAs s (dataAddr s.cfg x) v → ∃ t, exec i s = .next t ∧ Loaded s t d (dataAddr s.cfg x) v ∧
      t.pc = s.pcPlus n) ∧
    (∀ f, ReadStops s (dataAddr s.cfg x) f → exec i s = .fault f) := by
  refine ⟨fun v hv => ⟨_, ?_, loaded_of_read s d _ v n, rfl⟩, fun f hf => ?_⟩
  · rw [h, State.loadFrom, State.memRead_of_readsAs hv]
    rfl
  · rw [h, State.loadFrom, State.memRead_of_readStops hf]
    rfl

theorem ByteStored.advance {u : State} {v : Byte} {addr : DataAddr} (h : ByteStored s u addr v) (n : Nat) :
    u.advance n = { u with pc := s.pcPlus n } := by
  obtain ⟨hcfg, hpc, -⟩ := h.kept
  have hnext : u.pcPlus n = s.pcPlus n := by rw [State.pcPlus, State.pcPlus, hcfg, hpc]
  exact congrArg u.setPc hnext

/-- What `storeTo` does where it is the body of an instruction of `n` words. -/
theorem storeTo_result {n : Nat} {v : Byte}
    (h : exec i s = Res.toOutcome ((s.storeTo x v).map fun t => t.advance n)) :
    (Storable s.cfg (dataAddr s.cfg x) → ∃ u, ByteStored s u (dataAddr s.cfg x) v ∧
      exec i s = .next { u with pc := s.pcPlus n }) ∧
    (¬ Storable s.cfg (dataAddr s.cfg x) → exec i s = .fault (.dataAccessOutOfRange (dataAddr s.cfg x))) := by
  refine ⟨fun hstore => ?_, fun hstore => ?_⟩
  · obtain ⟨u, hu⟩ := State.memWrite_of_storable v hstore
    have hstored := (State.memWrite_ok hu).2
    refine ⟨u, hstored, ?_⟩
    rw [h, State.storeTo, hu, ← hstored.advance]
    rfl
  · rw [h, State.storeTo, State.memWrite_of_not_storable v hstore]
    rfl

end

/-- Settles O44: both forms load from their direct address. -/
theorem directLoads : Obligations.DirectLoads :=
  ⟨fun _ _ _ h => loadFrom_result (whenPresent_present h), fun _ _ _ h => loadFrom_result (whenPresent_present h)⟩

/-- Settles O45: both forms store to their direct address. -/
theorem directStores : Obligations.DirectStores :=
  ⟨fun _ _ _ h => storeTo_result (whenPresent_present h), fun _ _ _ h => storeTo_result (whenPresent_present h)⟩

/-- Settles O46: the three forms load from their pointer. -/
theorem indirectLoads : Obligations.IndirectLoads := fun _ _ _ =>
  ⟨fun h => loadFrom_result (whenPresent_present h), fun h => loadFrom_result (whenPresent_present h),
    fun h => loadFrom_result (whenPresent_present h)⟩

/-- Settles O47: the three forms store to their pointer. -/
theorem indirectStores : Obligations.IndirectStores := fun _ _ _ =>
  ⟨fun h => storeTo_result (whenPresent_present h), fun h => storeTo_result (whenPresent_present h),
    fun h => storeTo_result (whenPresent_present h)⟩

/-! ## Updating forms -/

section
variable {s : State} {i : Instr} {p : Ptr} {d : Reg} {inc : Bool} {body : Res State}

theorem unlessPointerHalf_of_half (h : d = p.low ∨ d = p.low + 1) :
    unlessPointerHalf i p d body = .error (.undefinedOperands i.firstWord) :=
  if_pos (by simpa only [Ptr.holds, Bool.or_eq_true, beq_iff_eq] using h)

theorem unlessPointerHalf_of_ne (hlow : d ≠ p.low) (hhigh : d ≠ p.low + 1) : unlessPointerHalf i p d body = body :=
  if_neg (by simpa only [Ptr.holds, Bool.or_eq_true, beq_iff_eq, not_or] using And.intro hlow hhigh)

theorem exec_updatingLoad (h : (updatingLoad inc p d).presentOn s.cfg = true) :
    exec (updatingLoad inc p d) s = Res.toOutcome (unlessPointerHalf (updatingLoad inc p d) p d
      ((if inc then s.loadInc d p else s.loadDec d p).map fun t => t.advance 1)) := by
  cases p <;> cases inc <;> exact whenPresent_present h

theorem exec_updatingStore (h : (updatingStore inc p d).presentOn s.cfg = true) :
    exec (updatingStore inc p d) s = Res.toOutcome (unlessPointerHalf (updatingStore inc p d) p d
      ((if inc then s.storeInc d p else s.storeDec d p).map fun t => t.advance 1)) := by
  cases p <;> cases inc <;> exact whenPresent_present h

/-- The pointer an updating form leaves (42_transfer.md R273, R274). -/
def State.ptrNext (s : State) (p : Ptr) (inc : Bool) : DataAddr := if inc then s.ptrPlus p 1 else s.ptrPlus p (-1)

/-- The address an updating form goes to: the old pointer, or the new one. -/
def State.updateAddr (s : State) (p : Ptr) (inc : Bool) : DataAddr :=
  dataAddr s.cfg (if inc then s.ptrGet p else s.ptrNext p inc)

/-- A pointer with its step fits in W bits, so the pointer set to it reads as it. -/
theorem State.ptrGet_ptrSet_next (t : State) (h : t.cfg = s.cfg) :
    (t.ptrSet p (s.ptrNext p inc)).ptrGet p = s.ptrNext p inc := by
  rw [State.ptrGet_ptrSet, h]
  refine lowBits_of_lt ?_
  cases inc <;> exact lowBits_toNat_lt _

/-- Both updating loads: the byte, the pointer, the register. -/
theorem updatingLoad_body : (if inc then s.loadInc d p else s.loadDec d p) =
    (s.memRead (s.updateAddr p inc)).map fun x => (x.2.ptrSet p (s.ptrNext p inc)).setReg d x.1 := by
  cases inc <;> rfl

/-- A register that is no half of the pointer is written without the pointer. -/
theorem State.ptrGet_setReg (hlow : d ≠ p.low) (hhigh : d ≠ p.low + 1) (v : Byte) :
    (s.setReg d v).ptrGet p = s.ptrGet p := by
  have hpair : (s.setReg d v).pair p.low = s.pair p.low := by
    rw [State.pair, State.pair, State.reg_setReg_other s v hlow.symm, State.reg_setReg_other s v hhigh.symm]
  have hramp : (s.setReg d v).ramp p.ramp = s.ramp p.ramp := by cases p <;> rfl
  rw [State.ptrGet, State.ptrGet, hpair, hramp]

/-- A pointer and a register are written. -/
theorem RegsKept.of_ptrSet_setReg (next : DataAddr) (v : Byte) :
    RegsKept s ((s.ptrSet p next).setReg d v) [d, p.low, p.low + 1] := fun x hx => by
  obtain ⟨hd, hlow, hhigh⟩ : x ≠ d ∧ x ≠ p.low ∧ x ≠ p.low + 1 := by simpa using hx
  rw [State.reg_setReg_other _ v hd, State.reg_ptrSet_of_ne s p next hlow hhigh]

/-- All that an updating load writes: registers, the RAMP registers, the pc, the platform's draws. -/
theorem updatingLoad_frame (d : Reg) (v : Byte) (n : Nat) {u : State} (hu : u = { s with
      regs := u.regs, rampd := u.rampd, rampx := u.rampx, rampy := u.rampy, rampz := u.rampz, draws := n }) :
    let t := (u.setReg d v).advance 1
    t.pc = s.pcPlus 1 ∧ t = { s with regs := t.regs, pc := t.pc, rampd := t.rampd, rampx := t.rampx, rampy := t.rampy,
                                     rampz := t.rampz, draws := n } := by
  rw [hu]
  exact ⟨rfl, rfl⟩

end

/-- Settles O48: the pointer is set before the register, which is none of its halves. -/
theorem updatingLoads : Obligations.UpdatingLoads := by
  intro p inc d s hpresent hlow hhigh
  have hexec := exec_updatingLoad hpresent
  rw [unlessPointerHalf_of_ne hlow hhigh, updatingLoad_body] at hexec
  refine ⟨fun v hv => ?_, fun f hf => ?_⟩
  · let r : State := { s with draws := drawsAfterRead s (s.updateAddr p inc) }
    have hread : s.memRead (s.updateAddr p inc) = .ok (v, r) := State.memRead_of_readsAs hv
    rw [hread] at hexec
    have hkept : RegsKept s ((r.ptrSet p (s.ptrNext p inc)).setReg d v) [d, p.low, p.low + 1] :=
      RegsKept.of_ptrSet_setReg (s := r) _ v
    obtain ⟨hpc, hframe⟩ := updatingLoad_frame (s := s) d v _ (r.ptrSet_frame p (s.ptrNext p inc))
    refine ⟨_, hexec, State.reg_setReg_same .., ?_, hkept, fun q hq => ?_, r.sameMemory_ptrSet p _, hpc, hframe⟩
    · exact (State.ptrGet_setReg hlow hhigh v).trans (State.ptrGet_ptrSet_next r rfl)
    · exact r.rampRaw_ptrSet_of_unwritten p _ fun h => absurd h hq
  · have hread : s.memRead (s.updateAddr p inc) = .error f := State.memRead_of_readStops hf
    rw [hexec, hread]
    rfl

section
variable {s : State} {p : Ptr} {d : Reg}

/-- Store, then pointer: what is stored, and the pointer set in the state after it. -/
theorem State.storeInc_result (s : State) (p : Ptr) (d : Reg) :
    let next := s.ptrPlus p 1
    let ea := dataAddr s.cfg (s.ptrGet p)
    (Storable s.cfg ea → ∃ u, ByteStored s u ea (s.reg d) ∧
      (s.storeInc d p).map (fun t => t.advance 1) = .ok { u.ptrSet p next with pc := s.pcPlus 1 }) ∧
    (¬ Storable s.cfg ea → s.storeInc d p = .error (.dataAccessOutOfRange ea)) := by
  intro next ea
  refine ⟨fun hstore => ?_, fun hstore => ?_⟩
  · obtain ⟨u, hu⟩ := State.memWrite_of_storable (s.reg d) hstore
    have hstored := (State.memWrite_ok hu).2
    obtain ⟨hcfg, hpc, -⟩ := hstored.kept
    have hnext : (u.ptrSet p next).pcPlus 1 = s.pcPlus 1 := by
      rw [State.pcPlus, State.pcPlus, State.ptrSet_cfg, State.ptrSet_pc, hcfg, hpc]
    have hbody : s.storeInc d p = .ok (u.ptrSet p next) := congrArg (Except.map _) hu
    rw [hbody]
    exact ⟨u, hstored, congrArg (fun pc => Except.ok ((u.ptrSet p next).setPc pc)) hnext⟩
  · exact congrArg (Except.map _) (State.memWrite_of_not_storable (s.reg d) hstore)

/-- Pointer, then store: what is stored in the state after the pointer is set. -/
theorem State.storeDec_result (s : State) (p : Ptr) (d : Reg) :
    let next := s.ptrPlus p (-1)
    let ea := dataAddr s.cfg next
    (Storable s.cfg ea → ∃ u, ByteStored (s.ptrSet p next) u ea (s.reg d) ∧
      (s.storeDec d p).map (fun t => t.advance 1) = .ok { u with pc := s.pcPlus 1 }) ∧
    (¬ Storable s.cfg ea → s.storeDec d p = .error (.dataAccessOutOfRange ea)) := by
  intro next ea
  have hbody : s.storeDec d p = (s.ptrSet p next).memWrite ea (s.reg d) := by
    rw [State.storeDec, State.storeTo, State.ptrSet_cfg]
  have hcfg : (s.ptrSet p next).cfg = s.cfg := State.ptrSet_cfg ..
  rw [hbody, ← hcfg]
  refine ⟨fun hstore => ?_, State.memWrite_of_not_storable (s.reg d)⟩
  obtain ⟨u, hu⟩ := State.memWrite_of_storable (s.reg d) hstore
  have hstored := (State.memWrite_ok hu).2
  have hnext : (s.ptrSet p next).pcPlus 1 = s.pcPlus 1 := by
    rw [State.pcPlus, State.pcPlus, hcfg, State.ptrSet_pc]
  rw [hu]
  exact ⟨u, hstored, congrArg Except.ok ((hstored.advance 1).trans (congrArg u.setPc hnext))⟩

end

/-- Settles O49: the store goes to the old pointer, or after the pointer is set to the new one. -/
theorem updatingStores : Obligations.UpdatingStores := by
  intro p inc d s hpresent hlow hhigh
  have hexec := exec_updatingStore hpresent
  rw [unlessPointerHalf_of_ne hlow hhigh] at hexec
  cases inc with
  | true =>
    obtain ⟨hstores, hstops⟩ := s.storeInc_result p d
    rw [if_pos rfl] at hexec
    refine ⟨fun hstore => ?_, fun hstore => ?_⟩
    · obtain ⟨u, hstored, hbody⟩ := hstores hstore
      have hmemory := u.sameMemory_ptrSet p (s.ptrPlus p 1)
      rw [hbody] at hexec
      exact ⟨u, _, hexec, ⟨hstored, rfl⟩, fun a ha => (hmemory a).1.trans (hstored.1 a ha),
        fun a => (hmemory a).2.trans (hstored.2.1 a)⟩
    · rw [hexec, hstops hstore]
      rfl
  | false =>
    obtain ⟨hstores, hstops⟩ := s.storeDec_result p d
    rw [if_neg (by decide)] at hexec
    refine ⟨fun hstore => ?_, fun hstore => ?_⟩
    · obtain ⟨u, hstored, hbody⟩ := hstores hstore
      have hmemory := s.sameMemory_ptrSet p (s.ptrPlus p (-1))
      rw [hbody] at hexec
      exact ⟨u, _, hexec, ⟨hstored, rfl⟩, fun a ha => (hstored.1 a ha).trans (hmemory a).1,
        fun a => (hstored.2.1 a).trans (hmemory a).2⟩
    · rw [hexec, hstops hstore]
      rfl

/-- Settles O50: the check of R275 comes before the body. -/
theorem pointerHalfStops : Obligations.PointerHalfStops := by
  intro p inc d s
  refine ⟨fun hhalf => ⟨fun h => ?_, fun h => ?_⟩, fun hhalf => ⟨fun h => ?_, fun h => ?_⟩⟩
  · rw [exec_updatingLoad h, unlessPointerHalf_of_half hhalf]
    rfl
  · rw [exec_updatingStore h, unlessPointerHalf_of_half hhalf]
    rfl
  · exact (whenPresent_present h).trans (congrArg Res.toOutcome (unlessPointerHalf_of_half (p := .z) hhalf))
  · exact (whenPresent_present h).trans (congrArg Res.toOutcome (unlessPointerHalf_of_half (p := .z) hhalf))

end Sys2Proof.Machine

/-! PROOFS. The rest of 42_transfer.md: loads from program memory, IN and OUT, PUSH and POP, the read-modify-write
instructions. -/

namespace Sys2Proof.Machine

/-! ## Program memory -/

section
variable {s : State} {i : Instr} {d : Reg} {a : Nat}

/-- A load from program memory that leaves the pointer. -/
theorem programLoad_result (h : exec i s = Res.toOutcome ((s.progByte a).map fun v => (s.setReg d v).advance 1)) :
    (a / 2 < s.cfg.flashWords →
      ∃ t, exec i s = .next t ∧ RegResult s t d ∧ t.reg d = s.pmByte a ∧ t.sreg = s.sreg) ∧
    (s.cfg.flashWords ≤ a / 2 → exec i s = .fault (.fetchOutOfRange (a / 2))) := by
  refine ⟨fun hlt => ⟨s.finish d (s.pmByte a) s.sreg, ?_, s.finish_regResult .., s.finish_reg_self .., rfl⟩,
    fun hle => ?_⟩
  · rw [h, State.progByte_of_lt hlt]
    rfl
  · rw [h, State.progByte_of_le hle]
    rfl

/-- A load from program memory that leaves the pointer changed to `next v`, and stops as the others do. -/
theorem programLoad_updating {j : Instr} {body : Byte → State} (hlow : d ≠ 30) (hhigh : d ≠ 31)
    (h : exec i s = Res.toOutcome (unlessPointerHalf j .z d ((s.progByte a).map body))) :
    (a / 2 < s.cfg.flashWords → exec i s = .next (body (s.pmByte a))) ∧
    (s.cfg.flashWords ≤ a / 2 → exec i s = .fault (.fetchOutOfRange (a / 2))) := by
  rw [unlessPointerHalf_of_ne (p := .z) hlow hhigh] at h
  refine ⟨fun hlt => ?_, fun hle => ?_⟩
  · rw [h, State.progByte_of_lt hlt]
    rfl
  · rw [h, State.progByte_of_le hle]
    rfl

theorem exec_lpmRdZinc (h : (Instr.lpmRdZinc d).presentOn s.cfg = true) :
    exec (.lpmRdZinc d) s = Res.toOutcome (unlessPointerHalf (.lpmRdZinc d) .z d ((s.progByte (s.pair 30).toNat).map
      fun v => ((s.setPair 30 (s.pair 30 + 1)).setReg d v).advance 1)) :=
  whenPresent_present h

theorem exec_elpmRdZinc (h : (Instr.elpmRdZinc d).presentOn s.cfg = true) :
    exec (.elpmRdZinc d) s = Res.toOutcome (unlessPointerHalf (.elpmRdZinc d) .z d ((s.progByte s.elpmAddr.toNat).map
      fun v => ((s.ptrSet .z (s.ptrPlus .z 1)).setReg d v).advance 1)) :=
  whenPresent_present h

theorem State.pair_setReg_of_ne (hlow : d ≠ 30) (hhigh : d ≠ 31) (v : Byte) : (s.setReg d v).pair 30 = s.pair 30 := by
  have h31 : (30 + 1 : Reg) = 31 := rfl
  rw [State.pair, State.pair, h31, State.reg_setReg_other s v hlow.symm, State.reg_setReg_other s v hhigh.symm]

end

/-- Settles O51: the byte at Z, and Z stepped in 16 bits. -/
theorem programLoads : Obligations.ProgramLoads := by
  intro d s
  refine ⟨fun h => programLoad_result (whenPresent_present h), fun h => programLoad_result (whenPresent_present h),
    fun h hlow hhigh => ?_⟩
  obtain ⟨hload, hstop⟩ := programLoad_updating hlow hhigh (exec_lpmRdZinc h)
  refine ⟨fun hlt => ⟨_, hload hlt, ⟨fun _ => ⟨rfl, rfl⟩, rfl⟩, fun x hx => ?_, State.reg_setReg_same .., ?_, rfl, rfl⟩,
    hstop⟩
  · obtain ⟨hd, hxlow, hxhigh⟩ : x ≠ d ∧ x ≠ 30 ∧ x ≠ 31 := by simpa using hx
    have hxhigh : x ≠ 30 + 1 := hxhigh
    refine (State.reg_setReg_other _ _ hd).trans ?_
    rw [State.reg_setPair, if_neg hxhigh, if_neg hxlow]
  · have hpair : ((s.setPair 30 (s.pair 30 + 1)).setReg d (s.pmByte (s.pair 30).toNat)).pair 30 = s.pair 30 + 1 := by
      rw [State.pair_setReg_of_ne hlow hhigh, State.pair_setPair]
    exact (congrArg BitVec.toNat hpair).trans (BitVec.toNat_add ..)

section
variable {s : State}

theorem State.toNat_elpmAddr (s : State) : s.elpmAddr.toNat = (s.ramp .z).toNat * 65536 + (s.pair 30).toNat :=
  s.toNat_ptrGet .z

/-- The pointer Z with RAMPZ, one byte on (42_transfer.md R285). -/
theorem State.toNat_ptrPlus_z (hz : s.cfg.hasRampz = true) (hbits : s.cfg.rampBits ≤ 8) :
    (s.ptrPlus .z 1).toNat = (s.elpmAddr.toNat + 1) % 2 ^ (16 + s.cfg.rampBits) := by
  have hwidth : Ptr.z.width s.cfg = 16 + s.cfg.rampBits := if_pos hz
  rw [State.ptrPlus, toNat_lowBits, hwidth, BitVec.toNat_add,
    Nat.mod_mod_of_dvd _ (Nat.pow_dvd_pow 2 (by omega : 16 + s.cfg.rampBits ≤ 24))]
  rfl

/-- All that `PtrSet` writes for Z. -/
theorem State.ptrSet_z_frame (hz : s.cfg.hasRampz = true) (v : DataAddr) :
    s.ptrSet .z v = { s with regs := (s.ptrSet .z v).regs, rampz := (s.ptrSet .z v).rampz } := by
  have hpresent : (Ptr.z.ramp).present (s.setPair Ptr.z.low (v.extractLsb' 0 16)).cfg = true := hz
  unfold State.ptrSet State.setRamp
  rw [if_pos hpresent]
  rfl

end

/-- Settles O52: the byte at RAMPZ:Z, and the whole address stepped. -/
theorem extendedProgramLoads : Obligations.ExtendedProgramLoads := by
  intro d s hz
  dsimp only
  rw [← s.toNat_elpmAddr]
  refine ⟨fun h => programLoad_result (whenPresent_present h), fun h => programLoad_result (whenPresent_present h),
    fun h hlow hhigh hbits => ?_⟩
  obtain ⟨hload, hstop⟩ := programLoad_updating hlow hhigh (exec_elpmRdZinc h)
  let v := s.pmByte s.elpmAddr.toNat
  have hkept : RegsKept s ((s.ptrSet .z (s.ptrPlus .z 1)).setReg d v) [d, 30, 31] :=
    RegsKept.of_ptrSet_setReg (p := .z) _ v
  have hnext : ((s.ptrSet .z (s.ptrPlus .z 1)).setReg d v).ptrGet .z = s.ptrPlus .z 1 :=
    (State.ptrGet_setReg hlow hhigh v).trans (State.ptrGet_ptrSet_next (inc := true) s rfl)
  have hpc : (s.ptrSet .z (s.ptrPlus .z 1)).pcPlus 1 = s.pcPlus 1 := by
    rw [State.pcPlus, State.pcPlus, State.ptrSet_cfg, State.ptrSet_pc]
  have hframe : ∀ u : State, u = { s with regs := u.regs, rampz := u.rampz } →
      (u.setReg d v).advance 1 = { s with
        regs := ((u.setReg d v).advance 1).regs, pc := ((u.setReg d v).advance 1).pc
        rampz := ((u.setReg d v).advance 1).rampz } := fun u hu => by
    rw [hu]
    rfl
  refine ⟨fun hlt => ⟨_, hload hlt, s.sameMemory_ptrSet .z _, hkept, State.reg_setReg_same .., ?_, hpc,
    hframe _ (State.ptrSet_z_frame hz _)⟩, hstop⟩
  exact (State.toNat_ptrGet _ .z).symm.trans ((congrArg BitVec.toNat hnext).trans (s.toNat_ptrPlus_z hz hbits))

/-! ## IN and OUT -/

theorem regionOf_ioDataAddr (c : Cfg) (a : BitVec 6) : regionOf c (ioDataAddr c a) = .io a := by
  have ha := a.isLt
  have hbase : c.ioBase ≤ 0x20 := by
    unfold Cfg.ioBase
    split <;> omega
  have haddr : (ioDataAddr c a).toNat = c.ioBase + a.toNat := Nat.mod_eq_of_lt (by omega)
  rw [regionOf_io (by omega) (by omega), haddr, Nat.add_sub_cancel_left, BitVec.ofNat_toNat, BitVec.setWidth_eq]

/-- Settles O53: an I/O access is an access of its data address. -/
theorem inOutResults : Obligations.InOutResults := by
  intro d a s
  have hregion := regionOf_ioDataAddr s.cfg a
  refine ⟨fun h => ?_, fun h => ?_⟩
  · have hread : s.memRead (ioDataAddr s.cfg a) = .ok ((s.ioRead a).1, (s.ioRead a).2) := by
      rw [State.memRead, hregion]
    obtain ⟨hv, hstate⟩ := State.memRead_ok_iff.1 hread
    refine ⟨_, _, (whenPresent_present h).trans ?_, hv, loaded_of_read s d _ _ 1, rfl⟩
    exact congrArg (fun u => Host.Outcome.next ((State.setReg u d (s.ioRead a).1).advance 1)) hstate
  · have hwrite : s.memWrite (ioDataAddr s.cfg a) (s.reg d) = .ok (s.ioWrite a (s.reg d)) := by
      rw [State.memWrite, hregion]
    have hstored := (State.memWrite_ok hwrite).2
    refine ⟨_, hstored, (whenPresent_present h).trans ?_⟩
    rw [← hstored.advance]
    rfl

/-! ## PUSH and POP -/

/-- Settles O54: Push8 and Pop8 with the register. -/
theorem pushPopResults : Obligations.PushPopResults := by
  intro d s
  refine ⟨fun h => ⟨fun hstore => ?_, fun hstore => ?_⟩, fun h => ⟨fun v hv => ?_, fun f hf => ?_⟩⟩
  · obtain ⟨u, hu⟩ := State.memWrite_of_storable (s.reg d) hstore
    have hstored := (State.memWrite_ok hu).2
    obtain ⟨hcfg, hpc, -⟩ := hstored.kept
    have hpush : s.push8 (s.reg d) = .ok (u.setSp (s.spVal - 1)) := congrArg (Except.map _) hu
    have hnext : (u.setSp (s.spVal - 1)).pcPlus 1 = s.pcPlus 1 := by
      rw [State.pcPlus, State.pcPlus, State.setSp_cfg, State.setSp_pc, hcfg, hpc]
    have hsp : u.setSp (s.spVal - 1) = { u with sp := lowBits s.cfg.spBits (s.spVal - 1) } := by
      rw [State.setSp, hcfg]
    refine ⟨u, hstored, (whenPresent_present h).trans ?_⟩
    rw [hpush]
    exact congrArg Host.Outcome.next ((congrArg (State.setPc _) hnext).trans (congrArg (State.setPc · _) hsp))
  · refine (whenPresent_present h).trans ?_
    rw [State.push8_of_not_storable hstore]
    rfl
  · refine ⟨_, (whenPresent_present h).trans ?_, loaded_of_read _ d _ v 1, rfl⟩
    rw [State.pop8_of_readsAs hv]
    rfl
  · refine (whenPresent_present h).trans ?_
    rw [State.pop8_of_readStops hf]
    rfl

/-! ## Read-modify-write -/

section
variable {s : State} {i : Instr} {d : Reg} {f : Byte → Byte → Byte}

theorem exchange_eq : s.exchange d f = s.memRead (dataAddr s.cfg (s.ptrGet .z)) >>= fun x =>
    (x.2.memWrite (dataAddr s.cfg (s.ptrGet .z)) (f x.1 (s.reg d))).map fun t => t.setReg d x.1 := by
  rw [State.exchange]
  refine Res.bind_congr fun ⟨old, t⟩ _ => ?_
  dsimp only
  cases t.memWrite (dataAddr s.cfg (s.ptrGet .z)) (f old (s.reg d)) <;> rfl

/-- What `exchange` does where it is the body of an instruction. -/
theorem exchange_result (h : exec i s = Res.toOutcome ((s.exchange d f).map fun t => t.advance 1)) :
    let ea := dataAddr s.cfg (s.ptrGet .z)
    let r : State := { s with draws := drawsAfterRead s ea }
    (∀ old, ReadsAs s ea old → Storable s.cfg ea → ∃ u t, ByteStored r u ea (f old (s.reg d)) ∧ exec i s = .next t ∧
      t.reg d = old ∧ RegsKept u t [d] ∧ t = { u with regs := t.regs, pc := s.pcPlus 1 }) ∧
    (∀ old, ReadsAs s ea old → ¬ Storable s.cfg ea → exec i s = .fault (.dataAccessOutOfRange ea)) ∧
    (∀ g, ReadStops s ea g → exec i s = .fault g) := by
  intro ea r
  refine ⟨fun old hold hstore => ?_, fun old hold hstore => ?_, fun g hg => ?_⟩
  · have hread : s.memRead ea = .ok (old, r) := State.memRead_of_readsAs hold
    obtain ⟨u, hu⟩ := State.memWrite_of_storable (s := r) (f old (s.reg d)) hstore
    have hstored := (State.memWrite_ok hu).2
    have hbody : s.exchange d f = .ok (u.setReg d old) := by
      rw [exchange_eq, hread]
      exact congrArg (Except.map _) hu
    have hnext : u.pcPlus 1 = s.pcPlus 1 := congrArg State.pc (hstored.advance 1)
    rw [h, hbody]
    refine ⟨u, _, hstored, rfl, State.reg_setReg_same .., fun x hx => ?_, congrArg (u.setReg d old).setPc hnext⟩
    exact State.reg_setReg_other u old (List.ne_of_not_mem_cons hx)
  · have hread : s.memRead ea = .ok (old, r) := State.memRead_of_readsAs hold
    have hstop := State.memWrite_of_not_storable (s := r) (f old (s.reg d)) hstore
    have hbody : s.exchange d f = .error (.dataAccessOutOfRange ea) := by
      rw [exchange_eq, hread]
      exact congrArg (Except.map _) hstop
    rw [h, hbody]
    rfl
  · rw [h, exchange_eq, State.memRead_of_readStops hg]
    rfl

end

/-- Settles O55: the four forms exchange the byte at Z. -/
theorem atomicResults : Obligations.AtomicResults := fun _ _ =>
  ⟨fun h => exchange_result (f := fun _ r => r) (whenPresent_present h),
    fun h => exchange_result (f := fun old r => old ||| r) (whenPresent_present h),
    fun h => exchange_result (f := fun old r => old &&& ~~~r) (whenPresent_present h),
    fun h => exchange_result (f := fun old r => old ^^^ r) (whenPresent_present h)⟩

end Sys2Proof.Machine

/-! PROOFS. Jumps, calls, returns, branches and skips (43_jump.md, 44_call.md, 45_branch.md): where each goes, and that
it changes nothing else. -/

namespace Sys2Proof.Machine

/-! ## Targets modulo 2^PC_BITS -/

section
variable {s : State}

theorem toNat_truncPc_ofInt {c : Cfg} (hvalid : c.valid = true) (z : Int) :
    ((truncPc c (BitVec.ofInt 22 z)).toNat : Int) = z % 2 ^ c.pcBits := by
  have hdvd : (2 ^ c.pcBits : Int) ∣ 2 ^ 22 := pow_dvd_pow 2 (Cfg.pcBits_le hvalid)
  rw [toNat_truncPc, BitVec.toNat_ofInt, Int.natCast_emod, Int.toNat_of_nonneg (Int.emod_nonneg _ (by decide))]
  push_cast
  exact Int.emod_emod_of_dvd z hdvd

/-- The target of a relative jump, call or branch (43_jump.md R320, 45_branch.md R367). -/
theorem State.toNat_relTarget (hvalid : s.cfg.valid = true) {w : Nat} (k : BitVec w) :
    ((s.relTarget (k.signExtend 22)).toNat : Int) = (s.pc.toNat + 1 + k.toInt) % 2 ^ s.cfg.pcBits := by
  have hsum : s.pc + 1 + k.signExtend 22 = BitVec.ofInt 22 (s.pc.toNat + 1 + k.toInt) := by
    rw [BitVec.ofInt_add, BitVec.ofInt_add, BitVec.ofInt_natCast, BitVec.ofNat_toNat, BitVec.setWidth_eq]
    rfl
  rw [State.relTarget, hsum, toNat_truncPc_ofInt hvalid]

theorem State.toNat_indirectTarget : s.indirectTarget.toNat = (s.pair 30).toNat % 2 ^ s.cfg.pcBits := by
  rw [State.indirectTarget, toNat_truncPc, BitVec.toNat_setWidth_of_le (by decide)]

theorem State.toNat_extendedTarget (hvalid : s.cfg.valid = true) :
    s.extendedTarget.toNat = (s.eindVal.toNat * 65536 + (s.pair 30).toNat) % 2 ^ s.cfg.pcBits := by
  rw [State.extendedTarget, toNat_truncPc, BitVec.toNat_setWidth, toNat_append_eq_mul_add,
    Nat.mod_mod_of_dvd _ (Nat.pow_dvd_pow 2 (Cfg.pcBits_le hvalid))]
  rfl

theorem State.setPc_onlyPc (s : State) (v : ProgAddr) : OnlyPc s (s.setPc v) := ⟨fun _ => ⟨rfl, rfl⟩, rfl⟩

end

/-- Settles O56: the pc is set to the target. -/
theorem jumpResults : Obligations.JumpResults := fun _ _ s hvalid =>
  ⟨⟨_, exec_rjmp _ s, s.setPc_onlyPc _, State.toNat_relTarget hvalid _⟩,
    fun h => ⟨_, whenPresent_present (i := .ijmp) h, s.setPc_onlyPc _, State.toNat_indirectTarget⟩,
    fun h => ⟨_, whenPresent_present (i := .eijmp) h, s.setPc_onlyPc _, State.toNat_extendedTarget hvalid⟩,
    fun h => ⟨_, whenPresent_present (i := .jmp _) h, s.setPc_onlyPc _, toNat_truncPc _⟩⟩

/-! ## Calls and returns -/

section
variable {s : State} {i : Instr}

/-- What `callTo` does where it is the body of an instruction. -/
theorem callTo_result {n : Nat} {target : ProgAddr} {z : Int} (h : exec i s = Res.toOutcome (s.callTo n target))
    (hz : (target.toNat : Int) = z % 2 ^ s.cfg.pcBits) :
    (∀ u, s.pushPc (s.pcPlus n) = .ok u → ∃ t, exec i s = .next t ∧ t = { u with pc := t.pc } ∧
      (t.pc.toNat : Int) = z % 2 ^ s.cfg.pcBits) ∧
    (∀ f, s.pushPc (s.pcPlus n) = .error f → exec i s = .fault f) := by
  refine ⟨fun u hu => ⟨u.setPc target, ?_, rfl, hz⟩, fun f hf => ?_⟩
  · rw [h, State.callTo, hu]
    rfl
  · rw [h, State.callTo, hf]
    rfl

end

/-- Settles O57: the four calls push the address after them and go to their target. -/
theorem callResults : Obligations.CallResults := by
  refine fun k l s hvalid => ⟨callTo_result rfl (State.toNat_relTarget hvalid k),
    fun h => callTo_result (whenPresent_present (i := .icall) h) ?_,
    fun h => callTo_result (whenPresent_present (i := .eicall) h) ?_,
    fun h => callTo_result (whenPresent_present (i := .call l) h) ?_⟩
  · rw [State.toNat_indirectTarget]
    push_cast
    rfl
  · rw [State.toNat_extendedTarget hvalid]
    push_cast
    rfl
  · rw [toNat_truncPc]
    push_cast
    rfl

theorem State.popPc_cfg {s u : State} {v : ProgAddr} (h : s.popPc = .ok (v, u)) : u.cfg = s.cfg :=
  (Effects.popPc (i := .ret) h).cfg_eq

/-- The return from an interrupt, but for the pop (60_exceptions.md R394). -/
theorem State.returnFromInterrupt_eq (s : State) :
    s.returnFromInterrupt = s.popPc.map fun x => { x.2 with
      pc := x.1
      sreg := if x.2.cfg.isXmega then x.2.sreg else withBit x.2.sreg bitI true
      irqInhibit := true
      trace := if x.2.cfg.isXmega then .handlerEnded :: x.2.trace else x.2.trace } := by
  unfold State.returnFromInterrupt
  congr 1
  funext x
  dsimp only
  split <;> rfl

theorem bitOf_return (sr : Byte) (xmega : Bool) (b : BitVec 3) :
    bitOf (if xmega then sr else withBit sr bitI true) b = (bitOf sr b || (b = 7 && !xmega)) := by
  cases xmega with
  | true => simp
  | false => by_cases hb : b = 7 <;> simp [bitOf_withBit, bitI, hb, Bool.or_comm]

/-- Settles O58: the pop gives the pc; RETI writes I, or tells the platform, and holds interrupts off. -/
theorem returnResults : Obligations.ReturnResults := by
  intro s
  have hret : exec .ret s = Res.toOutcome (s.popPc.map fun x => x.2.setPc x.1) := rfl
  have hreti : exec .reti s = Res.toOutcome s.returnFromInterrupt := rfl
  rw [State.returnFromInterrupt_eq] at hreti
  refine ⟨fun v u hu => ?_, fun f hf => ?_⟩
  · have hcfg := State.popPc_cfg hu
    rw [hu] at hret hreti
    refine ⟨hret, _, hreti, fun b => ?_, ?_⟩
    · rw [← hcfg]
      exact bitOf_return ..
    · rw [← hcfg]
  · rw [hret, hreti, hf]
    exact ⟨rfl, rfl⟩

/-! ## Branches and skips -/

/-- Settles O60: the flag chooses between the target and the next word. -/
theorem branchResults : Obligations.BranchResults := by
  intro b k s hvalid
  have htaken := State.toNat_relTarget hvalid k
  have hnext : ((s.pcPlus 1).toNat : Int) = (s.pc.toNat + 1 : Int) % 2 ^ s.cfg.pcBits := by
    rw [pcAdvance s 1 hvalid]
    push_cast
    rfl
  refine ⟨⟨_, rfl, s.setPc_onlyPc _, ?_⟩, ⟨_, rfl, s.setPc_onlyPc _, ?_⟩⟩
  · cases bitOf s.sreg b with
    | true => exact htaken
    | false => exact hnext
  · cases bitOf s.sreg b with
    | true => exact hnext
    | false => exact htaken

section
variable {s base : State} {i : Instr} {cond : Bool}

/-- What `skipIf` does where it is the body of an instruction. -/
theorem skipIf_result {n : Nat} (hbase : base = { s with draws := n })
    (h : exec i s = Res.toOutcome (base.skipIf cond)) : SkipEffect i s base cond := by
  have htarget : base.skipTarget = s.skipTarget := by rw [hbase]; rfl
  have hnext : base.pcPlus 1 = s.pcPlus 1 := by rw [hbase]; rfl
  refine ⟨fun w hw => ⟨fun hone => ?_, fun htwo hhas => ?_, fun htwo hlacks => ?_⟩, fun f hf => ?_⟩
  · have hgo : s.skipTarget = .ok (s.pcPlus 2) := by
      simp only [State.skipTarget, hw, hone, wordLength]
      rfl
    rw [h, State.skipIf, htarget, hgo, hnext]
    rfl
  · have hgo : s.skipTarget = .ok (s.pcPlus 3) := by
      simp only [State.skipTarget, hw, htwo, hhas, wordLength]
      rfl
    rw [h, State.skipIf, htarget, hgo, hnext]
    rfl
  · have hstop : s.skipTarget = .error (.reservedInstruction w) := by
      simp only [State.skipTarget, hw, htwo, hlacks]
      rfl
    rw [h, State.skipIf, htarget, hstop, State.advance, hnext]
    cases cond <;> rfl
  · have hstop : s.skipTarget = .error f := by
      simp only [State.skipTarget, hf]
    rw [h, State.skipIf, htarget, hstop, State.advance, hnext]
    cases cond <;> rfl

/-- SBIC and SBIS read the platform's byte (45_branch.md R365, R366). -/
theorem State.ioRead_low (s : State) (a : BitVec 5) : s.ioRead (a.setWidth 6) =
    (Config.platformByte s.draws (s.cfg.ioBase + a.toNat), { s with draws := s.draws + 1 }) := by
  have ha := a.isLt
  have hbase : s.cfg.ioBase ≤ 0x20 := by
    unfold Cfg.ioBase
    split <;> omega
  have haddr : (ioDataAddr s.cfg (a.setWidth 6)).toNat = s.cfg.ioBase + a.toNat := by
    rw [ioDataAddr, BitVec.toNat_setWidth, Nat.mod_eq_of_lt (by omega)]
    exact Nat.mod_eq_of_lt (by omega)
  rw [State.ioRead, ioTarget_low]
  dsimp only
  rw [State.platformRead, haddr]

theorem exec_sbic (a : BitVec 5) (b : BitVec 3) (s : State) : exec (.sbic a b) s =
    Res.toOutcome ((s.ioRead (a.setWidth 6)).2.skipIf (!bitOf (s.ioRead (a.setWidth 6)).1 b)) := rfl

theorem exec_sbis (a : BitVec 5) (b : BitVec 3) (s : State) : exec (.sbis a b) s =
    Res.toOutcome ((s.ioRead (a.setWidth 6)).2.skipIf (bitOf (s.ioRead (a.setWidth 6)).1 b)) := rfl

end

/-- Settles O59: each skip is `skipIf` on its condition. -/
theorem skipResults : Obligations.SkipResults := by
  intro d r a b s
  refine ⟨fun h => skipIf_result (n := s.draws) rfl (whenPresent_present h),
    fun h => skipIf_result (n := s.draws) rfl (whenPresent_present h),
    fun h => skipIf_result (n := s.draws) rfl (whenPresent_present h),
    skipIf_result (n := s.draws + 1) rfl ?_, skipIf_result (n := s.draws + 1) rfl ?_⟩
  · rw [exec_sbic, s.ioRead_low]
  · rw [exec_sbis, s.ioRead_low]

end Sys2Proof.Machine
